-- ==== Sys2Proof/Word.lean ====
section
/-! DEFINITION. The words of the debounce_fsm core: the bit formats of 30_encoding.md and the two-valued
things the spec names (line level, Morse symbol). No arithmetic stands here; bit positions and polarities are
in Decode.lean and Machine/. -/

namespace Sys2Proof

/-- An 8-bit datum: a ROM entry, `out_char`, `SENTINEL` (R38, R40). -/
abbrev Byte := BitVec 8

/-- Format IN (R50): the input vector sampled at one rising edge of `clk`. -/
abbrev InWord := BitVec 3

/-- Format EVT (R52): the event word of one cycle. -/
abbrev EvtWord := BitVec 8

/-- Format OUT (R51): the output ports after a rising edge. -/
abbrev OutWord := BitVec 21

/-- Format ROMADDR (R54): `len` in bits 6:4, `sym` in bits 3:0. -/
abbrev RomAddr := BitVec 7

/-- The number of symbols of a code word (R53). -/
abbrev CodeLen := BitVec 3

/-- The symbols of a code word, symbol `i` in bit `i` (R53). -/
abbrev CodeSym := BitVec 4

/-- The Line State of §3 as `btn_n` carries it (R14). -/
inductive Level where
  | pressed
  | released
  deriving DecidableEq, Repr

/-- One Morse unit (00_scope.md §4, Symbols). -/
inductive Sym where
  | dot
  | dash
  deriving DecidableEq, Repr

/-- `CAPACITY` (R1, R3): exactly 4, not configurable. -/
abbrev capacity : Nat := 4

end Sys2Proof
end

