-- ==== Sys2Proof/Config.lean ====
section
/-! DEFINITION. What a build of the block fixes (the parameters of R1 with their legal ranges, R2) and the free
values: what the spec leaves open while the machine goes on. -/

namespace Sys2Proof

/-- The implementation parameters of R1. `CAPACITY` is fixed (R3) and is `Sys2Proof.capacity`. -/
structure Params where
  /-- `CLK_HZ`: no rule reads it (R140, 93_implementation_defined.md A1). -/
  clkHz : Nat
  /-- `DEBOUNCE_CYCLES`: length of the one-shot debounce timer. -/
  debounceCycles : Nat
  /-- `TICK_CYCLES`: period of the sampling tick. -/
  tickCycles : Nat
  /-- `CONFIRM_T`: release-confirm threshold, in ticks. -/
  confirmT : Nat
  /-- `LONG_T`: long-press threshold, in ticks. -/
  longT : Nat
  /-- `PAUSE_T`: pause threshold, in ticks. -/
  pauseT : Nat
  /-- `CNT_W`: width of the run counters in bits. -/
  cntW : Nat
  /-- `SENTINEL`: the byte of an unrecognised code. -/
  sentinel : Byte
  deriving DecidableEq, Repr

/-- The greatest value of a run counter, `2^CNT_W - 1` (R1, R4). -/
def Params.cntMax (p : Params) : Nat := 2 ^ p.cntW - 1

/-- The legal ranges of R1; a set outside them configures no hardware (R2). -/
abbrev Params.Legal (p : Params) : Prop :=
  0 < p.clkHz ∧ 1 ≤ p.debounceCycles ∧ 1 ≤ p.tickCycles ∧
  1 ≤ p.confirmT ∧ p.confirmT < p.pauseT ∧
  p.longT < p.cntMax ∧ p.pauseT ≤ p.cntMax ∧ 1 ≤ p.cntW

/-- The least `w` with `2^w > n`: the width of a timer whose greatest value is `n` (R21, R23). -/
def timerWidth (n : Nat) : Nat := if n = 0 then 0 else Nat.log2 n + 1

/-- A nominal count of cycles for a duration in milliseconds (R1: `round(0.020 * CLK_HZ)`,
`round(0.010 * CLK_HZ)`). DESIGN CHOICE (entry 19): a half rounds up. -/
def nominalCycles (clkHz ms : Nat) : Nat := (clkHz * ms + 500) / 1000

/-- The defaults of R1 for a build with the given clock and the given values of the OPEN parameters. -/
def Params.defaults (clkHz debounceCycles tickCycles : Nat) : Params where
  clkHz := clkHz
  debounceCycles := debounceCycles
  tickCycles := tickCycles
  confirmT := 3
  longT := 30
  pauseT := 50
  cntW := 16
  sentinel := 0x3F#8

/-- A build at the nominal 20 ms and 10 ms of R1. -/
def Params.nominal (clkHz : Nat) : Params :=
  Params.defaults clkHz (nominalCycles clkHz 20) (nominalCycles clkHz 10)

/-- The test configuration TC of R6. DESIGN CHOICE (entry 3): `CLK_HZ`, which R6 does not name, is the value
whose nominal counts are TC's. -/
def Params.tc : Params := Params.defaults 100 2 1

/-- FREE VALUE (entry 2): the input vector the outside world supplies in a cycle for which no stimulus is
queued; R123: "free draws of the step, under no law". -/
opaque Config.freeInput : Nat → InWord

/-- FREE VALUE (entry 5): what a build's `high` becomes when a released tick would take this value of it past
`CNT_W` bits. The spec states no result (R4, R86 call it unreachable). A function of the operands, since the step
is a function of the registers and the input (R67). -/
opaque Config.freeHigh : Params → Nat → Nat

/-- FREE VALUE (entry 7): the length a working buffer is left with by an append that finds it full, where R98's
index names no bit of `buf_sym`; taken within `buf_len`'s range (R26). A function of the operands (R67): the
build, `buf_len`, `buf_sym` and the symbol. -/
opaque Config.freeLen : Params → CodeLen → CodeSym → Sym → Nat

/-- FREE VALUE (entry 7): the symbols a working buffer is left with by an append that finds it full, of the same
operands. -/
opaque Config.freeSym : Params → CodeLen → CodeSym → Sym → CodeSym

end Sys2Proof
end

