-- ==== Sys2Proof/Syntax.lean ====
section
/-! DEFINITION. The operations of the block (R56), one constructor per row of spec/opcode_table.json, and the
stimuli the outside world can present to the model (R50, R57, R61). -/

namespace Sys2Proof

/-- The sixteen operations of R56. `lvl` is the `LVL` bit of the event word (R55); only the two operations
whose pseudocode reads `in.btn_n` and whose encoding leaves the bit open carry it. -/
inductive Instr where
  /-- RESET (R127). -/
  | reset
  /-- CONSUME (R103). -/
  | consume
  /-- ACK_IDLE (R104). -/
  | ackIdle
  /-- TICK_ADV (R81). -/
  | tickAdv
  /-- ONESHOT_ADV (R75). -/
  | oneshotAdv
  /-- EDGE_LATCH (R71). -/
  | edgeLatch (lvl : Level)
  /-- LINE_SAMPLE (R72). -/
  | lineSample (lvl : Level)
  /-- TICK_PRESS (R85). -/
  | tickPress
  /-- TICK_RELEASE (R86). -/
  | tickRelease
  /-- CONFIRM (R91). -/
  | confirm
  /-- END_FULL (R92). -/
  | endFull
  /-- END_PAUSE (R94). -/
  | endPause
  /-- EXPIRE_PRESS (R77). -/
  | expirePress
  /-- EXPIRE_BOUNCE (R78). -/
  | expireBounce
  /-- FIRE (R74). -/
  | fire
  /-- ROM_READ (R107). -/
  | romRead
  deriving DecidableEq, Repr

/-- The procedures a test harness may apply to a state (R61; 95_test_vectors.md, "handler-level"). -/
inductive Call where
  /-- One operation of R56 by itself. -/
  | op (i : Instr)
  /-- `TickHandler(n, lvl)` (R84). -/
  | tickHandler (lvl : Level)
  /-- `ExpireHandler(n, lvl)` (R76). -/
  | expireHandler (lvl : Level)
  /-- The consume step: CONSUME or ACK_IDLE by `ready` (R48, R103, R104). -/
  | consumeStep
  /-- `Append(n, sym)` (R98). -/
  | append (sym : Sym)
  /-- `EndTiming(n)` (R93). -/
  | endTiming
  /-- `EndCode(n)` (R100). -/
  | endCode
  deriving DecidableEq, Repr

/-- What the outside world presents to the model for one step. -/
inductive Stim where
  /-- One clock cycle with this input vector (R50): the only stimulus hardware has. -/
  | input (v : InWord)
  /-- A harness hands the model the cycle's event word, to be checked (R57). -/
  | event (w : EvtWord)
  /-- A handler-level call (R61). -/
  | call (c : Call)
  deriving DecidableEq, Repr

end Sys2Proof
end

