-- ==== Sys2Proof/WellFormed.lean ====
section
/-! DEFINITION. Which terms of the syntax stand for something the spec's encodings can say. -/

namespace Sys2Proof

/-- The operands an encoding admits: EDGE_LATCH needs `FALL = 1`, and `FALL` needs `in.btn_n = 0` (R52, R56),
so its level is Pressed. No other operation restricts an operand. -/
def Instr.wellFormed : Instr → Bool
  | .edgeLatch .released => false
  | .edgeLatch .pressed => true
  | .lineSample _ => true
  | .reset => true
  | .consume => true
  | .ackIdle => true
  | .tickAdv => true
  | .oneshotAdv => true
  | .tickPress => true
  | .tickRelease => true
  | .confirm => true
  | .endFull => true
  | .endPause => true
  | .expirePress => true
  | .expireBounce => true
  | .fire => true
  | .romRead => true

end Sys2Proof
end

