-- ==== Sys2Proof/Decode.lean ====
section
/-! DEFINITION. Formats EVT and CODE as bits, the opcode table of R56 as rows of match and mask, the decoder
(an event word to the operations whose rows accept it) and the encoder. -/

namespace Sys2Proof

/-- `btn_n = 0` is Pressed, `btn_n = 1` is Released (R14). -/
def Level.ofBit : Bool → Level
  | false => .pressed
  | true => .released

/-- The port level of a line state (R14). -/
def Level.bit : Level → Bool
  | .pressed => false
  | .released => true

/-- `Dot = 0`, `Dash = 1` (R53). -/
def Sym.bit : Sym → Bool
  | .dot => false
  | .dash => true

/-! ### Format IN (R50) -/

/-- `IN[0]`, port `btn_n`. -/
def inLevel (v : InWord) : Level := Level.ofBit (v.getLsbD 0)
/-- `IN[1]`, port `ack`. -/
def inAck (v : InWord) : Bool := v.getLsbD 1
/-- `IN[2]`, port `rst`. -/
def inRst (v : InWord) : Bool := v.getLsbD 2

/-- The input vector with these port values (R50). -/
def inWord (rst ack : Bool) (lvl : Level) : InWord :=
  BitVec.ofBool rst ++ BitVec.ofBool ack ++ BitVec.ofBool lvl.bit

/-! ### Format EVT (R52) -/

/-- The event word with these bits; bits 7:6 are always 0. -/
def evtWord (rst fall exp tick ack : Bool) (lvl : Level) : EvtWord :=
  0b00#2 ++ BitVec.ofBool rst ++ BitVec.ofBool fall ++ BitVec.ofBool exp ++ BitVec.ofBool tick
    ++ BitVec.ofBool ack ++ BitVec.ofBool lvl.bit

/-- `EVT[0]`, the line level the handlers sample. -/
def evtLevel (w : EvtWord) : Level := Level.ofBit (w.getLsbD 0)
/-- `EVT[1]`. -/
def evtAck (w : EvtWord) : Bool := w.getLsbD 1
/-- `EVT[2]`. -/
def evtTick (w : EvtWord) : Bool := w.getLsbD 2
/-- `EVT[3]`. -/
def evtExp (w : EvtWord) : Bool := w.getLsbD 3
/-- `EVT[4]`. -/
def evtFall (w : EvtWord) : Bool := w.getLsbD 4
/-- `EVT[5]`. -/
def evtRst (w : EvtWord) : Bool := w.getLsbD 5

/-- The input vector an event word names: `RST`, `ACK` and `LVL` are `in.rst`, `in.ack` and `in.btn_n` (R52). -/
def evtInput (w : EvtWord) : InWord := inWord (evtRst w) (evtAck w) (evtLevel w)

/-! ### The opcode table (R56, spec/opcode_table.json) -/

/-- One row: the operation for a sampled level, and its match and mask over format EVT. -/
structure Row where
  instr : Level → Instr
  pattern : EvtWord
  mask : EvtWord

/-- A row accepts a word that agrees with its match on the bits of its mask. -/
def Row.accepts (r : Row) (w : EvtWord) : Bool := w &&& r.mask == r.pattern

/-- The rows in the table's order, which is the phase order of R62 but for ROM_READ (phase 0, inside CONSUME). -/
def table : List Row :=
  [ ⟨fun _ => .reset,        0x20, 0xE0⟩,
    ⟨fun _ => .consume,      0x02, 0xE2⟩,
    ⟨fun _ => .ackIdle,      0x02, 0xE2⟩,
    ⟨fun _ => .tickAdv,      0x00, 0xE0⟩,
    ⟨fun _ => .oneshotAdv,   0x00, 0xE0⟩,
    ⟨fun l => .edgeLatch l,  0x10, 0xF0⟩,
    ⟨fun l => .lineSample l, 0x00, 0xE0⟩,
    ⟨fun _ => .tickPress,    0x04, 0xE5⟩,
    ⟨fun _ => .tickRelease,  0x05, 0xE5⟩,
    ⟨fun _ => .confirm,      0x05, 0xE5⟩,
    ⟨fun _ => .endFull,      0x05, 0xE5⟩,
    ⟨fun _ => .endPause,     0x05, 0xE5⟩,
    ⟨fun _ => .expirePress,  0x08, 0xE9⟩,
    ⟨fun _ => .expireBounce, 0x09, 0xE9⟩,
    ⟨fun _ => .fire,         0x00, 0xE0⟩,
    ⟨fun _ => .romRead,      0x02, 0xE2⟩ ]

/-- The operations whose rows accept a word, in the table's order. -/
def rowsOf (w : EvtWord) : List Instr :=
  (table.filter (·.accepts w)).map (·.instr (evtLevel w))

/-! ### The decoder and the encoder -/

/-- Why a word is no event word of any state (R57). -/
inductive DecodeError where
  /-- Bit 6 or 7 is set. -/
  | reservedBits
  /-- `FALL = 1` with `LVL = 1`: a falling edge needs `in.btn_n = 0` (R52), so no state derives the word. -/
  | fallWhileReleased
  deriving DecidableEq, Repr

/-- Decode any 8-bit word: a named error, or every operation whose row accepts it (R56, R57). Which of them
the cycle performs depends on the state as well (`Machine.cycleOps`). -/
def decode (w : EvtWord) : Except DecodeError (List Instr) :=
  if w.getLsbD 6 || w.getLsbD 7 then .error .reservedBits
  else if evtFall w && evtLevel w == .released then .error .fallWhileReleased
  else .ok (rowsOf w)

/-- The event word of an operation: its row's match with the operand's level in `LVL`; every bit its row leaves
open is 0. -/
def encode : Instr → EvtWord
  | .reset => 0x20
  | .consume => 0x02
  | .ackIdle => 0x02
  | .tickAdv => 0x00
  | .oneshotAdv => 0x00
  | .edgeLatch lvl => 0x10 ||| (BitVec.ofBool lvl.bit).setWidth 8
  | .lineSample lvl => (BitVec.ofBool lvl.bit).setWidth 8
  | .tickPress => 0x04
  | .tickRelease => 0x05
  | .confirm => 0x05
  | .endFull => 0x05
  | .endPause => 0x05
  | .expirePress => 0x08
  | .expireBounce => 0x09
  | .fire => 0x00
  | .romRead => 0x02

/-- Several rows share one word (R56), so a word by itself names no single operation. This is the first
operation in phase order that an event bit of the word selects, or LINE_SAMPLE where no event bit is set
(DESIGN CHOICE, entry 9). -/
def leading (w : EvtWord) : Instr :=
  if evtRst w then .reset
  else if evtAck w then .consume
  else if evtFall w then .edgeLatch (evtLevel w)
  else if evtTick w then (match evtLevel w with | .pressed => .tickPress | .released => .tickRelease)
  else if evtExp w then (match evtLevel w with | .pressed => .expirePress | .released => .expireBounce)
  else .lineSample (evtLevel w)

/-- The operation the decoder reads from a word of the opcode table, numbered as the table numbers it. -/
def decodeTableWord (nbits w : Nat) : Option Instr :=
  if nbits ≤ 8 ∧ w < 256 then
    match decode (BitVec.ofNat 8 w) with
    | .ok ops => if leading (BitVec.ofNat 8 w) ∈ ops then some (leading (BitVec.ofNat 8 w)) else none
    | .error _ => none
  else none

end Sys2Proof
end

