-- ==== Sys2Proof/Machine/State.lean ====
section
/-! DEFINITION. The state of the block (10_state.md), the reasons a step can stop, and the state after reset. -/

namespace Sys2Proof.Machine

open Sys2Proof

/-- The registers of 10_state.md R18 to R30, and the model's own fields (`cfg`, `romData`, `stim`, `cycle`;
entries 2, 3, 8). A counter whose width a parameter sets is a Nat; its range is an invariant (entry 4). -/
structure State where
  /-- The build-time parameters (R1), the same in every state of a run (entry 3). -/
  cfg : Params
  /-- `line_q`: `btn_n` at the previous rising edge (R18). -/
  lineQ : Level
  /-- `edge_en`: the edge-notification enable (R19). -/
  edgeEn : Bool
  /-- `edge_pend`: the pending edge flag (R20). -/
  edgePend : Bool
  /-- `db_cnt`: the one-shot debounce timer, 0 when idle (R21). -/
  dbCnt : Nat
  /-- `sess`: the Session Flag (R22). -/
  sess : Bool
  /-- `tk_cnt`: the phase of the sampling tick, 0 when stopped (R23). -/
  tkCnt : Nat
  /-- `low`: pressed ticks counted (R24). -/
  low : Nat
  /-- `high`: released ticks counted (R25). -/
  high : Nat
  /-- `buf_len`: symbols in the working Code Buffer (R26). -/
  bufLen : CodeLen
  /-- `buf_sym`: the symbols of the working Code Buffer (R26). -/
  bufSym : CodeSym
  /-- `snap_len`: length of the frozen snapshot (R27). -/
  snapLen : CodeLen
  /-- `snap_sym`: symbols of the frozen snapshot (R27). -/
  snapSym : CodeSym
  /-- `ready`: the Ready Signal (R28). -/
  ready : Bool
  /-- `ovr`: the sticky overrun flag (R29). -/
  ovr : Bool
  /-- `out_valid` (R30). -/
  outValid : Bool
  /-- `out_char` (R30). -/
  outChar : Byte
  /-- The model's own: the byte on the ROM's data lines after ROM_READ and before CONSUME registers it (R107,
  entry 8). `none` at every cycle boundary. -/
  romData : Option Byte
  /-- The model's own: the stimuli presented and not yet taken, first one first (entry 2). -/
  stim : List Stim
  /-- The model's own: the cycle count that R31 allows; it indexes the free values (entry 2). -/
  cycle : Nat
  deriving DecidableEq, Repr

/-- The block raises no exception and has no fault state (R113), so no fault exists. -/
inductive Fault where
  deriving DecidableEq, Repr

/-- Why the model gives no behaviour (R118). Each is safe: a run stops where no hardware run can be. -/
inductive Refusal where
  /-- Raised by `exec`'s arm of an instruction without a meaning; no arm uses it. Safe. -/
  | notModelled (mnemonic : String)
  /-- Raised by `step` before anything else: the parameter set is outside R1's ranges (R2). Safe. -/
  | illegalParameters
  /-- Raised by `step` on a harness's event word with bit 6 or 7 set (R57). Safe. -/
  | reservedEvtBits
  /-- Raised by `step` on a harness's event word that the state and its own input bits do not derive (R57).
  Safe. -/
  | inconsistentEvt
  /-- Raised by `step` on a handler-level call in a state that breaks an invariant of R35 (R61, R118; entry 27 for
  the vectors that print a result there). Safe. -/
  | invariantBroken
  /-- Raised by `step` on a handler-level Append on a full working buffer, `buf_len >= 4` (R99). Safe. -/
  | appendToFullBuffer
  deriving DecidableEq, Repr

/-- The outcome of an operation or a step. -/
abbrev Result := Host.Outcome State Fault Refusal

/-- The reset state of R128, for the configuration TC (R6, entry 3), with no stimulus queued. -/
def State.reset : State where
  cfg := Params.tc
  lineQ := .released
  edgeEn := true
  edgePend := false
  dbCnt := 0
  sess := false
  tkCnt := 0
  low := 0
  high := 0
  bufLen := 0#3
  bufSym := 0b0000#4
  snapLen := 0#3
  snapSym := 0b0000#4
  ready := false
  ovr := false
  outValid := false
  outChar := 0x00#8
  romData := none
  stim := []
  cycle := 0

end Sys2Proof.Machine
end

