-- ==== Sys2Proof/Machine/Operands.lean ====
section
/-! DEFINITION. The operands of the operations (R55) and their arithmetic (R4): the saturating and the plain
increment, the countdown, the threshold comparisons, symbol insertion, the ROM address. -/

namespace Sys2Proof.Machine

open Sys2Proof

/-- `sat_N(v)` (00_scope.md §4). -/
def sat (width v : Nat) : Nat := min v (2 ^ width - 1)

/-- `low` after one more pressed tick (R85). -/
def State.lowNext (s : State) : Nat := sat s.cfg.cntW (s.low + 1)

/-- `high` after one more released tick (R86). Where the sum does not fit `CNT_W` bits the spec states no
result, and the value is free within the register's width (DESIGN CHOICE, entry 5), one value for one build and
one `high` (R67). -/
def State.highNext (s : State) : Nat :=
  if s.high + 1 < 2 ^ s.cfg.cntW then s.high + 1 else Config.freeHigh s.cfg s.high % 2 ^ s.cfg.cntW

/-- A timer counts down only when nonzero and never goes below 0 (R4). -/
def countdown (n : Nat) : Nat := n - 1

/-- `tk_cnt` after one cycle of a session (R81; DEDUCED from R4 at 0, entry 6). -/
def State.tkNext (s : State) : Nat := if s.tkCnt = 1 then s.cfg.tickCycles else countdown s.tkCnt

/-- CLASSIFY, the long-press comparator: unsigned, strict (R90). -/
def State.classify (s : State) : Sym := if s.low > s.cfg.longT then .dash else .dot

/-- `sym[i] <- b` on a code's symbols (R4 "Bit insertion", R98). -/
def insertSym (syms : CodeSym) (i : CodeLen) (b : Sym) : CodeSym :=
  if b.bit then syms ||| (1#4 <<< i.toNat) else syms &&& ~~~ (1#4 <<< i.toNat)

/-- `buf_len` after an append (R98). From a full buffer, which no run reaches (R99), R98 gives no result, and the
value is free within the register's range 0 to 4 (DESIGN CHOICE, entry 7), one value for one build, one buffer and
one symbol (R67). -/
def State.lenNext (s : State) (b : Sym) : CodeLen :=
  if s.bufLen.toNat < capacity then s.bufLen + 1#3
  else BitVec.ofNat 3 (Config.freeLen s.cfg s.bufLen s.bufSym b % (capacity + 1))

/-- `buf_sym` after an append (R98). From a full buffer it is free in the same way (DESIGN CHOICE, entry 7). -/
def State.symNext (s : State) (b : Sym) : CodeSym :=
  if s.bufLen.toNat < capacity then insertSym s.bufSym s.bufLen b
  else Config.freeSym s.cfg s.bufLen s.bufSym b

/-- Format ROMADDR: `{len[2:0], sym[3:0]}` (R54). -/
def romAddr (len : CodeLen) (syms : CodeSym) : RomAddr := len ++ syms

/-- Positions at and above the length hold 0 (R53, R26). -/
abbrev Canonical (len : CodeLen) (syms : CodeSym) : Prop :=
  ∀ i : Fin 4, len.toNat ≤ i.val → syms.getLsbD i.val = false

/-- The code word of a sequence of symbols: symbol `i` is bit `i`, bits above the length are 0 (R53). -/
def codeWord (code : List Sym) : RomAddr :=
  romAddr (BitVec.ofNat 3 code.length)
    (code.zipIdx.foldl (fun acc p => insertSym acc (BitVec.ofNat 3 p.2) p.1) 0#4)

end Sys2Proof.Machine
end

