-- ==== Sys2Proof/Machine/Flags.lean ====
section
/-! DEFINITION. What is computed from the registers and is no register itself: the control phase (R32), the
indicators and output ports (R17, R33), format OUT (R51), and the event bits of a cycle (R52). -/

namespace Sys2Proof.Machine

open Sys2Proof

/-- The three states the source names for the Symbol Classifier (R32). -/
inductive Phase where
  | idle
  | timingPress
  | timingRelease
  deriving DecidableEq, Repr

/-- The control phase (R32). -/
def State.phase (s : State) : Phase :=
  if s.sess = false then .idle else if s.high = 0 then .timingPress else .timingRelease

/-- Output `busy` (R17). -/
def State.busy (s : State) : Bool := s.sess

/-- Output `ind_press` (R33). -/
def State.indPress (s : State) : Bool := s.lineQ == .pressed

/-- Output `ind_long` (R33). -/
def State.indLong (s : State) : Bool := s.lineQ == .pressed && decide (s.low > s.cfg.longT)

/-- Format OUT: the output ports packed as R51 says, `ind_long` in bit 20 down to `ready` in bit 0. -/
def State.outWord (s : State) : OutWord :=
  BitVec.ofBool s.indLong ++ BitVec.ofBool s.indPress ++ BitVec.ofBool s.ovr ++ s.snapSym ++ s.snapLen
    ++ s.outChar ++ BitVec.ofBool s.outValid ++ BitVec.ofBool s.busy ++ BitVec.ofBool s.ready

/-- The sampling tick of Tick Source B: `s.sess = 1 and s.tk_cnt = 1` (R52, R81). -/
def State.tick (s : State) : Bool := s.sess && s.tkCnt == 1

/-- The expiry of Tick Source A: `s.db_cnt = 1` (R52, R75). -/
def State.exp (s : State) : Bool := s.dbCnt == 1

/-- A falling edge: `s.line_q = 1 and in.btn_n = 0` (R52, R71). -/
def State.fall (s : State) (lvl : Level) : Bool := s.lineQ == .released && lvl == .pressed

/-- The event word a cycle derives from the state at its start and its input vector (R52). -/
def State.evt (s : State) (v : InWord) : EvtWord :=
  evtWord (inRst v) (s.fall (inLevel v)) s.exp s.tick (inAck v) (inLevel v)

end Sys2Proof.Machine
end

