-- ==== Sys2Proof/Machine/Ops.lean ====
section
/-! DEFINITION. The shared operations: performing one outcome after another, the procedures EndTiming, EndCode
and Append that several operations call, STOP and ARM of the sampling tick, the start of a cycle, and the reset
of every register. There is no exception entry and no return to write here: the block raises no exception
(R113) and a handler ends within the step that entered it (R121). -/

namespace Sys2Proof.Machine

open Sys2Proof

/-- Perform `f` on the state an outcome gives; a stop stays a stop. -/
def andThen (o : Result) (f : State → Result) : Result :=
  match o with
  | .next s => f s
  | .fault r => .fault r
  | .refused r => .refused r

/-- STOP (R83): `n.tk_cnt <- 0` together with `n.sess <- 0`. -/
def stopSampler (s : State) : State := { s with sess := false, tkCnt := 0 }

/-- ARM (R82): `n.tk_cnt <- TICK_CYCLES` together with `n.sess <- 1`. -/
def armSampler (s : State) : State := { s with sess := true, tkCnt := s.cfg.tickCycles }

/-- `EndTiming(n)` (R93). -/
def endTiming (s : State) : State := { stopSampler s with low := 0, high := 0 }

/-- `EndCode(n)` (R100, R102): freeze the snapshot, clear the working buffer, raise Ready; an unconsumed code
sets `ovr`. -/
def endCode (s : State) : State :=
  { s with
    ovr := s.ovr || s.ready
    snapLen := s.bufLen
    snapSym := s.bufSym
    bufLen := 0#3
    bufSym := 0b0000#4
    ready := true }

/-- `Append(n, sym)` (R98). A harness's call on a full buffer is refused (R99, Harness.lean). -/
def append (b : Sym) (s : State) : State := { s with bufSym := s.symNext b, bufLen := s.lenNext b }

/-- Every cycle begins with `n.out_valid <- 0` (R62, R30), and no byte is left on the ROM's data lines from an
earlier cycle (entry 8). -/
def beginCycle (s : State) : State := { s with outValid := false, romData := none }

/-- Every register to its value in R128. The parameters are no state (R37) and stay, and so do the stimuli to
come and the cycle count (entry 24). -/
def resetRegisters (s : State) : State :=
  { State.reset with cfg := s.cfg, stim := s.stim, cycle := s.cycle }

end Sys2Proof.Machine
end

