-- ==== Sys2Proof/Machine/MorseLut.lean ====
section
/-! DEFINITION. morse_to_ascii_lut: the Morse table (R108), the ROM (R107, R109) and ROM_READ. -/

namespace Sys2Proof.Machine

open Sys2Proof

/-- The 26 letters with their patterns, in the order of R108 (entry 18). -/
def morseTable : List (Byte × List Sym) :=
  [ (0x41#8, [.dot, .dash]),
    (0x42#8, [.dash, .dot, .dot, .dot]),
    (0x43#8, [.dash, .dot, .dash, .dot]),
    (0x44#8, [.dash, .dot, .dot]),
    (0x45#8, [.dot]),
    (0x46#8, [.dot, .dot, .dash, .dot]),
    (0x47#8, [.dash, .dash, .dot]),
    (0x48#8, [.dot, .dot, .dot, .dot]),
    (0x49#8, [.dot, .dot]),
    (0x4A#8, [.dot, .dash, .dash, .dash]),
    (0x4B#8, [.dash, .dot, .dash]),
    (0x4C#8, [.dot, .dash, .dot, .dot]),
    (0x4D#8, [.dash, .dash]),
    (0x4E#8, [.dash, .dot]),
    (0x4F#8, [.dash, .dash, .dash]),
    (0x50#8, [.dot, .dash, .dash, .dot]),
    (0x51#8, [.dash, .dash, .dot, .dash]),
    (0x52#8, [.dot, .dash, .dot]),
    (0x53#8, [.dot, .dot, .dot]),
    (0x54#8, [.dash]),
    (0x55#8, [.dot, .dot, .dash]),
    (0x56#8, [.dot, .dot, .dot, .dash]),
    (0x57#8, [.dot, .dash, .dash]),
    (0x58#8, [.dash, .dot, .dot, .dash]),
    (0x59#8, [.dash, .dot, .dash, .dash]),
    (0x5A#8, [.dash, .dash, .dot, .dot]) ]

/-- The letter whose pattern is the whole code word at an address, if there is one (R107, exact match; R112). -/
def romLetter (a : RomAddr) : Option Byte :=
  (morseTable.find? fun r => codeWord r.2 == a).map (·.1)

/-- `ROM(a)` (R107): the letter at the address, else `SENTINEL` (R109). -/
def rom (p : Params) (a : RomAddr) : Byte := (romLetter a).getD p.sentinel

/-- The byte at the snapshot's address, `ROM({s.snap_len, s.snap_sym})` (R38, R103). -/
def State.snapByte (s : State) : Byte := rom s.cfg (romAddr s.snapLen s.snapSym)

/-- ROM_READ (R107), inside CONSUME: the byte at the snapshot's address appears on the ROM's data lines. No
register is written: CONSUME registers the byte (R43, R107, entry 8). -/
def execRomRead (s : State) : Result := .next { s with romData := some s.snapByte }

end Sys2Proof.Machine
end

