-- ==== Sys2Proof/Machine/CodeBuffer.lean ====
section
/-! DEFINITION. code_buffer_with_ready_flag: the consumer's side, CONSUME and ACK_IDLE. (Append and EndCode are
in Ops.lean.) -/

namespace Sys2Proof.Machine

open Sys2Proof

/-- Register the byte on the ROM's data lines and clear Ready (R103). -/
def registerByte (s : State) : Result :=
  .next { s with outChar := s.romData.getD s.outChar, outValid := true, ready := false, romData := none }

/-- CONSUME (R103): ROM_READ, then `out_char`, `out_valid` and `ready` are written, all in one step. -/
def execConsume (s : State) : Result := andThen (execRomRead s) registerByte

/-- ACK_IDLE (R104): no effect. -/
def execAckIdle (s : State) : Result := .next s

/-- The consume step (R48): CONSUME when a code is ready, else ACK_IDLE. -/
def consumeStep (s : State) : Result := if s.ready then execConsume s else execAckIdle s

end Sys2Proof.Machine
end

