-- ==== Sys2Proof/Machine/Debounce.lean ====
section
/-! DEFINITION. debounce_fsm: EDGE_LATCH, LINE_SAMPLE, FIRE, ONESHOT_ADV, EXPIRE_PRESS and EXPIRE_BOUNCE. -/

namespace Sys2Proof.Machine

open Sys2Proof

/-- EDGE_LATCH (R71): a falling edge sets the pending flag, whatever `edge_en` is. -/
def execEdgeLatch (lvl : Level) (s : State) : Result :=
  if s.fall lvl then .next { s with edgePend := true } else .next s

/-- LINE_SAMPLE (R72). -/
def execLineSample (lvl : Level) (s : State) : Result := .next { s with lineQ := lvl }

/-- FIRE (R74): take the notification and start the one-shot. -/
def execFire (s : State) : Result :=
  .next { s with edgeEn := false, edgePend := false, dbCnt := s.cfg.debounceCycles }

/-- ONESHOT_ADV (R75): the debounce timer counts down when it is not idle. -/
def execOneshotAdv (s : State) : Result :=
  if s.dbCnt ≠ 0 then .next { s with dbCnt := countdown s.dbCnt } else .next s

/-- EXPIRE_PRESS (R77): force-close an open session by EndTiming, then open a new one and arm the tick. -/
def execExpirePress (s : State) : Result :=
  let n := if s.sess then endTiming s else s
  .next (armSampler { n with low := 0, high := 0 })

/-- EXPIRE_BOUNCE (R78): discard the bounce and re-enable edge notification. -/
def execExpireBounce (s : State) : Result := .next { s with edgePend := false, edgeEn := true }

/-- `ExpireHandler(n, lvl)` (R76). -/
def expireHandler (lvl : Level) (s : State) : Result :=
  match lvl with
  | .pressed => execExpirePress s
  | .released => execExpireBounce s

end Sys2Proof.Machine
end

