-- ==== Sys2Proof/Machine/Classifier.lean ====
section
/-! DEFINITION. morse_symbol_classifier: CONFIRM, END_FULL, END_PAUSE and the checks of one released tick. -/

namespace Sys2Proof.Machine

open Sys2Proof

/-- END_FULL (R92): EndTiming, then EndCode. -/
def execEndFull (s : State) : Result := .next (endCode (endTiming s))

/-- "reset `low_count` to 0; re-enable edge notification" (R91). -/
def closePress (s : State) : State := { s with low := 0, edgeEn := true }

/-- What CONFIRM does after its append: the press is closed, and a full buffer ends the code (R91, R92). -/
def finishConfirm (s : State) : Result :=
  if s.bufLen.toNat = capacity then execEndFull (closePress s) else .next (closePress s)

/-- CONFIRM (R91): classify and append the press's symbol, zero `low`, re-enable edge notification, and end
the code when the buffer is full. -/
def execConfirm (s : State) : Result := finishConfirm (append s.classify s)

/-- END_PAUSE (R94): EndTiming, then EndCode. -/
def execEndPause (s : State) : Result := .next (endCode (endTiming s))

/-- The pause check of R95. -/
def pauseCheck (s : State) : Result := if s.high = s.cfg.pauseT then execEndPause s else .next s

/-- `ClassifierChecks(n)` (R95): the release-confirm check, then the pause check unless the session ended. -/
def classifierChecks (s : State) : Result :=
  if s.high = s.cfg.confirmT then
    andThen (execConfirm s) fun n => if n.sess = false then .next n else pauseCheck n
  else pauseCheck s

end Sys2Proof.Machine
end

