-- ==== Sys2Proof/Machine/Duration.lean ====
section
/-! DEFINITION. duration_accumulator: TICK_ADV, TICK_PRESS, TICK_RELEASE and their dispatch. (ARM and STOP are
in Ops.lean.) -/

namespace Sys2Proof.Machine

open Sys2Proof

/-- TICK_ADV (R81): the sampling tick's phase advances while a session is open. -/
def execTickAdv (s : State) : Result :=
  if s.sess then .next { s with tkCnt := s.tkNext } else .next s

/-- TICK_PRESS (R85): a pressed tick counts in `low`, saturating. -/
def execTickPress (s : State) : Result := .next { s with low := s.lowNext }

/-- TICK_RELEASE (R86): a released tick counts in `high`, then the classifier checks run. -/
def execTickRelease (s : State) : Result := classifierChecks { s with high := s.highNext }

/-- `TickHandler(n, lvl)` (R84). -/
def tickHandler (lvl : Level) (s : State) : Result :=
  match lvl with
  | .pressed => execTickPress s
  | .released => execTickRelease s

end Sys2Proof.Machine
end

