-- ==== Sys2Proof/Machine/Reset.lean ====
section
/-! DEFINITION. RESET, the synchronous reset. -/

namespace Sys2Proof.Machine

open Sys2Proof

/-- RESET (R127): every register to its value in R128, from any state (R129). -/
def execReset (s : State) : Result := .next (resetRegisters s)

end Sys2Proof.Machine
end

