-- ==== Sys2Proof/Machine/Dispatch.lean ====
section
/-! DEFINITION. One arm per operation of R56: its effect on the working copy `n`. The selecting conditions are
the cycle's (Cycle.lean), not the arms' (R61, entry 13). -/

namespace Sys2Proof.Machine

open Sys2Proof

def exec (i : Instr) (s : State) : Host.Outcome State Fault Refusal :=
  match i with
  | .reset => Sys2Proof.Machine.execReset s
  | .consume => Sys2Proof.Machine.execConsume s
  | .ackIdle => Sys2Proof.Machine.execAckIdle s
  | .tickAdv => Sys2Proof.Machine.execTickAdv s
  | .oneshotAdv => Sys2Proof.Machine.execOneshotAdv s
  | .edgeLatch lvl => Sys2Proof.Machine.execEdgeLatch lvl s
  | .lineSample lvl => Sys2Proof.Machine.execLineSample lvl s
  | .tickPress => Sys2Proof.Machine.execTickPress s
  | .tickRelease => Sys2Proof.Machine.execTickRelease s
  | .confirm => Sys2Proof.Machine.execConfirm s
  | .endFull => Sys2Proof.Machine.execEndFull s
  | .endPause => Sys2Proof.Machine.execEndPause s
  | .expirePress => Sys2Proof.Machine.execExpirePress s
  | .expireBounce => Sys2Proof.Machine.execExpireBounce s
  | .fire => Sys2Proof.Machine.execFire s
  | .romRead => Sys2Proof.Machine.execRomRead s

end Sys2Proof.Machine
end

