-- ==== Sys2Proof/Machine/Cycle.lean ====
section
/-! DEFINITION. The cycle step of R62: which operations a cycle performs, and performing them in phase order on
the working copy. -/

namespace Sys2Proof.Machine

open Sys2Proof

/-- The further state condition of R56 for the operations of phases 0 to 4 and RESET, read at the start of the
cycle. `false` for the operations the cycle does not select by itself: CONFIRM, END_FULL and END_PAUSE are
performed inside TICK_RELEASE, ROM_READ inside CONSUME (entry 11), and FIRE is tested after phase 4. -/
def selects (s : State) : Instr → Bool
  | .reset => true
  | .consume => s.ready
  | .ackIdle => !s.ready
  | .tickAdv => s.sess
  | .oneshotAdv => s.dbCnt != 0
  | .edgeLatch _ => true
  | .lineSample _ => true
  | .tickPress => true
  | .tickRelease => true
  | .confirm => false
  | .endFull => false
  | .endPause => false
  | .expirePress => true
  | .expireBounce => true
  | .fire => false
  | .romRead => false

/-- The operations of a cycle up to phase 4, in phase order: those whose row accepts the cycle's event word and
whose state condition holds (R56). -/
def cycleOps (s : State) (v : InWord) : List Instr := (rowsOf (s.evt v)).filter (selects s)

/-- Perform operations one after another on the working copy. -/
def runOps : List Instr → State → Result
  | [], n => .next n
  | i :: is, n => andThen (exec i n) (runOps is)

/-- Phase 5: the edge notification, tested on the working copy after phase 4 (R62, R74). -/
def firePhase (n : State) : Result := if n.edgeEn && n.edgePend then exec .fire n else .next n

/-- One cycle with the input vector `v` (R62): reset replaces the step (R63); otherwise the cycle begins, the
selected operations run in phase order, and the pending edge fires last. -/
def cycle (v : InWord) (s : State) : Result :=
  if inRst v then runOps (cycleOps s v) s
  else andThen (runOps (cycleOps s v) (beginCycle s)) firePhase

/-- The cycle count advances by one per clock cycle (R31). -/
def countCycle (s : State) : State := { s with cycle := s.cycle + 1 }

/-- One rising edge of `clk`: the cycle, counted. -/
def clock (v : InWord) (s : State) : Result := andThen (cycle v s) fun n => .next (countCycle n)

end Sys2Proof.Machine
end

