-- ==== Sys2Proof/Machine/Invariants.lean ====
section
/-! DEFINITION. The invariants of R35 that are predicates of one state (items 1 to 9), which a handler-level
call checks (R61). Item 10 is a property of a session's history and no predicate of a state (entry 14). -/

namespace Sys2Proof.Machine

open Sys2Proof

/-- R35 item 1. -/
abbrev State.Inv1 (s : State) : Prop :=
  (s.tkCnt = 0 ↔ s.sess = false) ∧ (s.sess = true → 1 ≤ s.tkCnt ∧ s.tkCnt ≤ s.cfg.tickCycles)
/-- R35 item 2. -/
abbrev State.Inv2 (s : State) : Prop := s.dbCnt ≤ s.cfg.debounceCycles
/-- R35 item 3. -/
abbrev State.Inv3 (s : State) : Prop := s.sess = false → s.low = 0 ∧ s.high = 0
/-- R35 item 4. -/
abbrev State.Inv4 (s : State) : Prop := s.high < s.cfg.pauseT
/-- R35 item 5. -/
abbrev State.Inv5 (s : State) : Prop := s.bufLen.toNat ≤ 3 ∧ Canonical s.bufLen s.bufSym
/-- R35 item 6. -/
abbrev State.Inv6 (s : State) : Prop :=
  s.snapLen.toNat ≤ 4 ∧ Canonical s.snapLen s.snapSym ∧ (s.ready = true → 1 ≤ s.snapLen.toNat)
/-- R35 item 7. -/
abbrev State.Inv7 (s : State) : Prop := ¬ (s.edgeEn = true ∧ s.edgePend = true)
/-- R35 item 8. -/
abbrev State.Inv8 (s : State) : Prop := 0 < s.dbCnt → s.edgeEn = false
/-- R35 item 9. -/
abbrev State.Inv9 (s : State) : Prop :=
  s.sess = true ∧ s.high < s.cfg.confirmT → s.edgeEn = false ∧ s.dbCnt = 0

/-- R35, items 1 to 9. -/
abbrev State.Inv (s : State) : Prop :=
  s.Inv1 ∧ s.Inv2 ∧ s.Inv3 ∧ s.Inv4 ∧ s.Inv5 ∧ s.Inv6 ∧ s.Inv7 ∧ s.Inv8 ∧ s.Inv9

end Sys2Proof.Machine
end

