-- ==== Sys2Proof/Machine/Harness.lean ====
section
/-! DEFINITION. What the outside world can present (R57, R61, R118, R123): a clock cycle's input vector, a
harness's event word, or a handler-level call; and taking the next one. Also how an opcode-table word is
presented as the next stimulus. -/

namespace Sys2Proof.Machine

open Sys2Proof

/-- A harness's event word (R57): refused with a reserved bit, or where the state and the word's own input bits
derive another word; else the cycle it names. -/
def clockEvent (w : EvtWord) (s : State) : Result :=
  match decode w with
  | .error .reservedBits => .refused .reservedEvtBits
  | .error .fallWhileReleased => .refused .inconsistentEvt
  | .ok _ => if s.evt (evtInput w) = w then clock (evtInput w) s else .refused .inconsistentEvt

/-- The procedure a handler-level call applies (R61). -/
def runCall (c : Call) (s : State) : Result :=
  match c with
  | .op i => exec i s
  | .tickHandler lvl => tickHandler lvl s
  | .expireHandler lvl => expireHandler lvl s
  | .consumeStep => consumeStep s
  | .append b => .next (append b s)
  | .endTiming => .next (endTiming s)
  | .endCode => .next (endCode s)

/-- Whether a call is an Append on a full working buffer, which has its own refusal (R99, R118). -/
def overfills (c : Call) (s : State) : Bool :=
  match c with
  | .append _ => decide (capacity ≤ s.bufLen.toNat)
  | .op _ => false
  | .tickHandler _ => false
  | .expireHandler _ => false
  | .consumeStep => false
  | .endTiming => false
  | .endCode => false

/-- A handler-level call (R61, R118): refused on a state that breaks R35. It is no clock cycle (entry 15).
DESIGN CHOICE (entry 27): the vectors L1.7 and L1.8 of 95_test_vectors.md apply TickHandler to a state with
`db_cnt = 2` in an unconfirmed session, which breaks R35 item 9; R61 and R118 are followed, so such a call is
refused, while `runCall` by itself gives the results those vectors print. -/
def handlerCall (c : Call) (s : State) : Result :=
  if overfills c s then .refused .appendToFullBuffer
  else if s.Inv then runCall c s
  else .refused .invariantBroken

/-- Take the next stimulus; where none is queued, the cycle's input vector is a free draw (R123, entry 2). -/
def respond (s : State) : Result :=
  match s.stim with
  | [] => clock (Config.freeInput s.cycle) s
  | .input v :: rest => clock v { s with stim := rest }
  | .event w :: rest => clockEvent w { s with stim := rest }
  | .call c :: rest => handlerCall c { s with stim := rest }

/-- The registers changed as little as makes the state derive the event word `w` (R52) and the leading
operation's state condition hold (R56). -/
def arrange (w : EvtWord) (s : State) : State :=
  { s with
    lineQ := if evtLevel w = .released then s.lineQ else if evtFall w then .released else .pressed
    sess := if evtTick w then true else if s.tick then false else s.sess
    tkCnt := if evtTick w then 1 else if s.tick then 0 else s.tkCnt
    dbCnt := if evtExp w then 1 else if s.exp then 0 else s.dbCnt
    ready := if leading w = .consume then true else s.ready }

/-- Present an opcode-table word as the very next stimulus (entries 9, 10). -/
def present (w : Nat) (s : State) : State :=
  let e : EvtWord := BitVec.ofNat 8 w
  { arrange e s with stim := .event e :: s.stim }

end Sys2Proof.Machine
end

