-- ==== Sys2Proof/Machine/Step.lean ====
section
/-! DEFINITION. One step of the model: one clock cycle, or one harness stimulus. -/

namespace Sys2Proof.Machine

open Sys2Proof

/-- A step refuses an illegal parameter set before anything else (R2); otherwise it takes the next stimulus. -/
def step (s : State) : Host.Outcome State Fault Refusal :=
  if s.cfg.Legal then respond s else .refused .illegalParameters

/-- The state in which the next step performs the cycle that the opcode-table word `w` names (entry 10). -/
def State.withFetchWord (s : State) (nbits w : Nat) : State := present (w % 2 ^ nbits) s

end Sys2Proof.Machine
end

