-- ==== Sys2Proof/Machine/Stimulus.lean ====
section
/-! DEFINITION. Stimulus scripts (R59), their macros (R60), and presenting a script to the model as its clock
cycles (R143). -/

namespace Sys2Proof.Machine

open Sys2Proof

/-- The five line forms of R59. -/
inductive LineKind where
  /-- `P`. -/
  | pressed
  /-- `R`. -/
  | released
  /-- `P ack`. -/
  | pressedAck
  /-- `R ack`. -/
  | releasedAck
  /-- `RST`. -/
  | reset
  deriving DecidableEq, Repr

/-- The input vector of a line form (R59). -/
def LineKind.word : LineKind → InWord
  | .pressed => 0b000#3
  | .released => 0b001#3
  | .pressedAck => 0b010#3
  | .releasedAck => 0b011#3
  | .reset => 0b101#3

/-- One line of a script: a count of cycles and their form (R59). -/
structure ScriptLine where
  count : Nat
  kind : LineKind
  deriving DecidableEq, Repr

/-- `<count>` is at least 1 (R59). -/
def ScriptLine.wellFormed (l : ScriptLine) : Bool := decide (1 ≤ l.count)

/-- A script's encoding: the run-length list of `(count, IN)` pairs (R59). -/
def encodeScript (ls : List ScriptLine) : List (Nat × InWord) := ls.map fun l => (l.count, l.kind.word)

/-- The expansion of an encoding: one input vector per cycle, cycle 1 first (R59). -/
def expand : List (Nat × InWord) → List InWord
  | [] => []
  | (n, v) :: rest => List.replicate n v ++ expand rest

/-- The state with these input vectors as the cycles to come (R143). -/
def State.withInputs (s : State) (vs : List InWord) : State := { s with stim := vs.map .input }

/-! ### The macros of R60 -/

/-- `PRESS k`. -/
def press (k : Nat) : List ScriptLine := [⟨k, .pressed⟩]
/-- `RELEASE k`. -/
def release (k : Nat) : List ScriptLine := [⟨k, .released⟩]
/-- `TICKS k L`, with `L` in `P`, `R`. -/
def ticks (p : Params) (k : Nat) (l : Level) : List ScriptLine :=
  [⟨k * p.tickCycles, match l with | .pressed => .pressed | .released => .released⟩]
/-- `CONSUME`. -/
def consumeLine : List ScriptLine := [⟨1, .releasedAck⟩]
/-- `KEYDOT`. -/
def keyDot (p : Params) : List ScriptLine :=
  [⟨1 + p.debounceCycles + p.tickCycles, .pressed⟩, ⟨p.confirmT * p.tickCycles, .released⟩]
/-- `KEYDASH`. -/
def keyDash (p : Params) : List ScriptLine :=
  [⟨1 + p.debounceCycles + (p.longT + 1) * p.tickCycles, .pressed⟩,
   ⟨p.confirmT * p.tickCycles, .released⟩]
/-- `ENDCODE`. -/
def endCodeLine (p : Params) : List ScriptLine := [⟨(p.pauseT - p.confirmT) * p.tickCycles, .released⟩]

/-! ### The written form of a line (R59) -/

/-- A line's text before its comment. -/
def dropComment : List Char → List Char
  | [] => []
  | c :: cs => if c = ';' then [] else c :: dropComment cs

/-- The words of a text, separated by spaces (entry 21); the first argument is the word being read. -/
def wordsFrom : List Char → List Char → List (List Char)
  | w, [] => if w = [] then [] else [w]
  | w, c :: cs =>
    if c = ' ' then (if w = [] then wordsFrom [] cs else w :: wordsFrom [] cs)
    else wordsFrom (w ++ [c]) cs

/-- The value of a decimal digit. -/
def digitValue (c : Char) : Option Nat :=
  if '0'.toNat ≤ c.toNat ∧ c.toNat ≤ '9'.toNat then some (c.toNat - '0'.toNat) else none

/-- A decimal integer, read on from the digits before. -/
def decimalFrom : Nat → List Char → Option Nat
  | n, [] => some n
  | n, c :: cs =>
    match digitValue c with
    | some d => decimalFrom (10 * n + d) cs
    | none => none

/-- The words after the count (R59). -/
def kindOf (ws : List (List Char)) : Option LineKind :=
  if ws = [['P']] then some .pressed
  else if ws = [['R']] then some .released
  else if ws = [['P'], ['a', 'c', 'k']] then some .pressedAck
  else if ws = [['R'], ['a', 'c', 'k']] then some .releasedAck
  else if ws = [['R', 'S', 'T']] then some .reset
  else none

/-- Parse one line of a script (R59); anything else is no line of a script. -/
def parseLine (text : List Char) : Option ScriptLine :=
  match wordsFrom [] (dropComment text) with
  | [] => none
  | w :: ws =>
    match decimalFrom 0 w, kindOf ws with
    | some n, some k => if 1 ≤ n then some ⟨n, k⟩ else none
    | _, _ => none

/-- Parse a script, a list of lines (R59). -/
def parseScript : List (List Char) → Option (List ScriptLine)
  | [] => some []
  | t :: ts =>
    match parseLine t, parseScript ts with
    | some l, some ls => some (l :: ls)
    | _, _ => none

end Sys2Proof.Machine
end

