-- ==== Sys2Proof/Safety.lean ====
section
/-! DEFINITION. The terms the statements use: the clean launch (R144), a run of clock cycles and its
observation (R143), the ranges of the registers, and the inductive form of R35's invariants. -/

namespace Sys2Proof.Safety

open Sys2Proof Sys2Proof.Machine

/-- The clean launch (R144): a legal parameter set and the reset state of R128, with nothing in flight. -/
abbrev CleanLaunch (s : State) : Prop :=
  s.cfg.Legal ∧ s = { State.reset with cfg := s.cfg, stim := s.stim, cycle := s.cycle }

/-- A run of one clock cycle per input vector (R143). -/
def feed (vs : List InWord) (s : State) : Host.Outcome State Fault Refusal :=
  Host.Core.run Sys2Proof.core vs.length (s.withInputs vs)

/-- The output vectors of a run, one after each cycle, up to a stop (R143). -/
def outputs : Nat → State → List OutWord
  | 0, _ => []
  | k + 1, s =>
    match step s with
    | .next t => t.outWord :: outputs k t
    | .fault _ => []
    | .refused _ => []

/-- The next step is a clock cycle with the input vector `v`: queued, named by a harness's event word, or,
with nothing queued, the free draw (R123). -/
abbrev NextInput (s : State) (v : InWord) : Prop :=
  (∃ rest, s.stim = .input v :: rest) ∨
  (s.stim = [] ∧ v = Config.freeInput s.cycle) ∨
  (∃ w rest, s.stim = .event w :: rest ∧ v = evtInput w)

/-- What is left of the stimuli after the next step. -/
def remaining (s : State) : List Stim := s.stim.drop 1

/-- Every register is in the range that 10_state.md gives it (R21, R23, R24, R25, R26, R27). -/
abbrev InRange (s : State) : Prop :=
  s.dbCnt ≤ s.cfg.debounceCycles ∧ s.tkCnt ≤ s.cfg.tickCycles ∧
  s.low ≤ s.cfg.cntMax ∧ s.high ≤ s.cfg.cntMax ∧
  s.bufLen.toNat ≤ 4 ∧ s.snapLen.toNat ≤ 4

/-- The invariants of R35 (items 1 to 9) with what they need to be kept by every cycle: a session past its
release-confirm has a symbol in its buffer (the reason R94 gives for a pause never producing an empty code),
`low` in range, and no byte on the ROM's data lines (entry 14). -/
abbrev Kept (s : State) : Prop :=
  s.Inv ∧ s.low ≤ s.cfg.cntMax ∧
  (s.sess = true → s.cfg.confirmT ≤ s.high → 1 ≤ s.bufLen.toNat) ∧
  s.romData = none

/-- The released tick of this cycle is the session's release-confirm (R89), by `high` as the tick counts it (free
where the sum does not fit its width, entry 5). -/
abbrev ConfirmTick (s : State) (v : InWord) : Prop :=
  s.tick = true ∧ inLevel v = .released ∧ s.highNext = s.cfg.confirmT

/-- The released tick of this cycle is the session's pause (R89), by the same counted `high`. -/
abbrev PauseTick (s : State) (v : InWord) : Prop :=
  s.tick = true ∧ inLevel v = .released ∧ s.highNext = s.cfg.pauseT

/-- The cycle ends a code: by the pause (R94), or by the symbol that fills the buffer (R92). In a state whose
buffer is already full, which no run reaches, the free length decides (entry 7). -/
abbrev EndsCode (s : State) (v : InWord) : Prop :=
  PauseTick s v ∨ (ConfirmTick s v ∧ s.lenNext s.classify = 4#3)

/-- One line of the pseudocode of R62: perform an operation where its condition holds. -/
def perform (b : Bool) (i : Instr) (n : State) : Host.Outcome State Fault Refusal :=
  if b then exec i n else .next n

/-- The column "EVT condition" of R56, row by row. -/
def evtCondition (w : EvtWord) : Instr → Bool
  | .reset => evtRst w
  | .consume => !evtRst w && evtAck w
  | .ackIdle => !evtRst w && evtAck w
  | .tickAdv => !evtRst w
  | .oneshotAdv => !evtRst w
  | .edgeLatch lvl => !evtRst w && evtFall w && evtLevel w == lvl
  | .lineSample lvl => !evtRst w && evtLevel w == lvl
  | .tickPress => !evtRst w && evtTick w && evtLevel w == .pressed
  | .tickRelease => !evtRst w && evtTick w && evtLevel w == .released
  | .confirm => !evtRst w && evtTick w && evtLevel w == .released
  | .endFull => !evtRst w && evtTick w && evtLevel w == .released
  | .endPause => !evtRst w && evtTick w && evtLevel w == .released
  | .expirePress => !evtRst w && evtExp w && evtLevel w == .pressed
  | .expireBounce => !evtRst w && evtExp w && evtLevel w == .released
  | .fire => !evtRst w
  | .romRead => !evtRst w && evtAck w

/-- The bits of the event word that an operation's row fixes (its mask in spec/opcode_table.json), with `LVL`
for the operations that carry the level as an operand. -/
def fixedBits : Instr → EvtWord
  | .reset => 0xE0
  | .consume => 0xE2
  | .ackIdle => 0xE2
  | .tickAdv => 0xE0
  | .oneshotAdv => 0xE0
  | .edgeLatch _ => 0xF1
  | .lineSample _ => 0xE1
  | .tickPress => 0xE5
  | .tickRelease => 0xE5
  | .confirm => 0xE5
  | .endFull => 0xE5
  | .endPause => 0xE5
  | .expirePress => 0xE9
  | .expireBounce => 0xE9
  | .fire => 0xE0
  | .romRead => 0xE2

/-! ### The printed ROM contents of R110, row `len`, column `sym`; `none` is `SENTINEL` -/

/-- A row of R110 that holds no letter. -/
def romRowEmpty : List (Option Byte) := List.replicate 16 none
/-- Row 1 of R110. -/
def romRow1 : List (Option Byte) := [some 0x45#8, some 0x54#8] ++ List.replicate 14 none
/-- Row 2 of R110. -/
def romRow2 : List (Option Byte) :=
  [some 0x49#8, some 0x4E#8, some 0x41#8, some 0x4D#8] ++ List.replicate 12 none
/-- Row 3 of R110. -/
def romRow3 : List (Option Byte) :=
  [some 0x53#8, some 0x44#8, some 0x52#8, some 0x47#8, some 0x55#8, some 0x4B#8, some 0x57#8, some 0x4F#8] ++
  List.replicate 8 none
/-- Row 4 of R110. -/
def romRow4 : List (Option Byte) :=
  [some 0x48#8, some 0x42#8, some 0x4C#8, some 0x5A#8, some 0x46#8, some 0x43#8, some 0x50#8, none] ++
  [some 0x56#8, some 0x58#8, none, some 0x51#8, none, some 0x59#8, some 0x4A#8, none]

/-- The 128 entries of R110. -/
def printedRom : List (Option Byte) :=
  romRowEmpty ++ romRow1 ++ romRow2 ++ romRow3 ++ romRow4 ++ romRowEmpty ++ romRowEmpty ++ romRowEmpty

end Sys2Proof.Safety
end

