-- ==== Sys2Proof/Certificates/Slice0/Obligations.lean ====
section
/-! DEFINITION. The statements about the model, each with the rule of spec/ it formalises. -/

open Sys2Proof Sys2Proof.Machine Sys2Proof.Safety

/-! ### Encodings -/

/-- R56: the decoder lists exactly the operations whose EVT condition holds in the word. (That it answers a list
is entry 9.) -/
def Obligations.DecodeListsEvtConditions : Prop :=
  ∀ (w : EvtWord) (ops : List Instr), decode w = .ok ops → ∀ i : Instr, i ∈ ops ↔ evtCondition w i = true

/-- Decode and encode agree on every well-formed operation: its own word decodes to it, and an acceptable word
decodes to it exactly when the word agrees with its encoding on the bits the encoding fixes. -/
def Obligations.DecodeOfEncode : Prop :=
  ∀ i : Instr, i.wellFormed = true →
    (∃ ops, decode (encode i) = .ok ops ∧ i ∈ ops) ∧
    ∀ (w : EvtWord) (ops : List Instr), decode w = .ok ops →
      (i ∈ ops ↔ (w ^^^ encode i) &&& fixedBits i = 0#8)

/-- R57 on the words themselves: a reserved bit is rejected by its name, a falling edge on a released line by
its own, and every other word decodes. That no state derives the second kind of word, so that it is rejected
without a state, is deduced from R52 (entry 12). -/
def Obligations.DecodeRejectsByName : Prop :=
  ∀ w : EvtWord,
    (decode w = .error .reservedBits ↔ w.getLsbD 6 = true ∨ w.getLsbD 7 = true) ∧
    (decode w = .error .fallWhileReleased ↔
      w.getLsbD 6 = false ∧ w.getLsbD 7 = false ∧ evtFall w = true ∧ evtLevel w = .released)

/-- A few words written out from the spec's encodings (R52, R56) decode to the operation they stand for; where
rows share a word, the one answered is the model's choice (entry 9). -/
def Obligations.WrittenWordsDecode : Prop :=
  decodeTableWord 8 0b00100000 = some .reset ∧
  decodeTableWord 8 0b00000010 = some .consume ∧
  decodeTableWord 8 0b00010000 = some (.edgeLatch .pressed) ∧
  decodeTableWord 8 0b00000001 = some (.lineSample .released) ∧
  decodeTableWord 8 0b00000100 = some .tickPress ∧
  decodeTableWord 8 0b00000101 = some .tickRelease ∧
  decodeTableWord 8 0b00001000 = some .expirePress ∧
  decodeTableWord 8 0b00001001 = some .expireBounce

/-- R52: each bit of the derived event word, and its reserved bits 0. -/
def Obligations.EventWordBits : Prop :=
  ∀ (s : State) (v : InWord),
    (s.evt v).getLsbD 0 = v.getLsbD 0 ∧
    (s.evt v).getLsbD 1 = v.getLsbD 1 ∧
    ((s.evt v).getLsbD 2 = true ↔ s.sess = true ∧ s.tkCnt = 1) ∧
    ((s.evt v).getLsbD 3 = true ↔ s.dbCnt = 1) ∧
    ((s.evt v).getLsbD 4 = true ↔ s.lineQ = .released ∧ v.getLsbD 0 = false) ∧
    (s.evt v).getLsbD 5 = v.getLsbD 2 ∧
    (s.evt v).getLsbD 6 = false ∧ (s.evt v).getLsbD 7 = false

/-- R17, R51: where each output port stands in the OUT word and what it shows. -/
def Obligations.OutputPorts : Prop :=
  ∀ s : State,
    s.outWord.getLsbD 0 = s.ready ∧ s.outWord.getLsbD 1 = s.sess ∧ s.outWord.getLsbD 2 = s.outValid ∧
    s.outWord.extractLsb' 3 8 = s.outChar ∧ s.outWord.extractLsb' 11 3 = s.snapLen ∧
    s.outWord.extractLsb' 14 4 = s.snapSym ∧ s.outWord.getLsbD 18 = s.ovr ∧
    (s.outWord.getLsbD 19 = true ↔ s.lineQ = .pressed) ∧
    (s.outWord.getLsbD 20 = true ↔ s.lineQ = .pressed ∧ s.cfg.longT < s.low)

/-! ### The step -/

/-- R56, R62: a step runs the decoded operations: those that the cycle's event word and the state select run in
order, then the fire phase. That the cycle selects CONFIRM, END_FULL, END_PAUSE and ROM_READ never by themselves,
since their parents perform them, is deduced (entry 11); that the input is taken from a queue and the cycle counted
is the model's own (entry 2), and so are the ROM data lines that `beginCycle` empties (entry 8). -/
def Obligations.StepRunsSelectedOperations : Prop :=
  ∀ (s : State) (v : InWord) (rest : List Stim),
    s.cfg.Legal → s.stim = .input v :: rest → inRst v = false →
    (∃ ops, decode (s.evt v) = .ok ops ∧ cycleOps s v = ops.filter (selects s)) ∧
    step s =
      andThen (runOps (cycleOps s v) (beginCycle { s with stim := rest })) fun n =>
      andThen (firePhase n) fun n => .next { n with cycle := n.cycle + 1 }

/-- R62: the step of a cycle without reset is the pseudocode, phase by phase, on the working copy. The cycle
count, and the emptied ROM data lines, are the model's own (entries 2, 8). -/
def Obligations.StepFollowsPseudocode : Prop :=
  ∀ (s : State) (v : InWord) (rest : List Stim),
    s.cfg.Legal → s.stim = .input v :: rest → inRst v = false →
    step s =
      andThen (perform (inAck v && s.ready) .consume
        { s with stim := rest, outValid := false, romData := none }) fun n =>
      andThen (perform s.sess .tickAdv n) fun n =>
      andThen (perform (s.dbCnt != 0) .oneshotAdv n) fun n =>
      andThen (perform (s.lineQ == .released && inLevel v == .pressed) (.edgeLatch (inLevel v)) n) fun n =>
      andThen (exec (.lineSample (inLevel v)) n) fun n =>
      andThen (perform (s.sess && s.tkCnt == 1 && inLevel v == .pressed) .tickPress n) fun n =>
      andThen (perform (s.sess && s.tkCnt == 1 && inLevel v == .released) .tickRelease n) fun n =>
      andThen (perform (s.dbCnt == 1 && inLevel v == .pressed) .expirePress n) fun n =>
      andThen (perform (s.dbCnt == 1 && inLevel v == .released) .expireBounce n) fun n =>
      andThen (perform (n.edgeEn && n.edgePend) .fire n) fun n => .next { n with cycle := n.cycle + 1 }

/-- R63: in a cycle with `rst = 1` no phase runs and the other inputs are ignored: every register takes its
reset value, whatever the state was, and a ready code is lost without an overrun (R127, R128). That the parameters, the
queue and the count are kept or go on is the model's own (entries 2, 24), and so are the ROM data lines (entry 8). -/
def Obligations.ResetCycleOverridesInputs : Prop :=
  ∀ (s : State) (v : InWord) (rest : List Stim),
    s.cfg.Legal → s.stim = .input v :: rest → inRst v = true →
    step s = .next
      { cfg := s.cfg, lineQ := .released, edgeEn := true, edgePend := false, dbCnt := 0, sess := false,
        tkCnt := 0, low := 0, high := 0, bufLen := 0#3, bufSym := 0#4, snapLen := 0#3, snapSym := 0#4,
        ready := false, ovr := false, outValid := false, outChar := 0#8, romData := none, stim := rest,
        cycle := s.cycle + 1 }

/-- R69: a cycle without reset, tick, expiry, pending edge fire or effective ack advances the running timers,
samples the line and clears `out_valid`; a falling edge is still latched while notification is off, which R62
and R71 say and R69's "changes nothing else" leaves out (entry 25). That a timer at 0 stays at 0 is R4, applied to
`tk_cnt` in a session by inference (entry 6). The emptied ROM data lines (entry 8), the queue and the cycle count
(entry 2) are the model's own. -/
def Obligations.QuietCycle : Prop :=
  ∀ (s : State) (v : InWord) (rest : List Stim),
    s.cfg.Legal → s.stim = .input v :: rest → inRst v = false →
    ¬ (s.sess = true ∧ s.tkCnt = 1) → s.dbCnt ≠ 1 → ¬ (inAck v = true ∧ s.ready = true) →
    ¬ (s.edgeEn = true ∧ (s.edgePend = true ∨ s.lineQ = .released ∧ inLevel v = .pressed)) →
    step s = .next
      { s with
        dbCnt := s.dbCnt - 1
        tkCnt := if s.sess = true then s.tkCnt - 1 else s.tkCnt
        lineQ := inLevel v
        edgePend := s.edgePend || (s.lineQ == .released && inLevel v == .pressed)
        outValid := false
        romData := none
        stim := rest
        cycle := s.cycle + 1 }

/-- R67: with a legal build, a clock cycle answers a next state for every state and every input vector: it never
faults, refuses or blocks. In states no run reaches, where the spec states no value, the model answers one with a
free value (entries 5, 7); the input where none is queued is a free draw (entry 2). -/
def Obligations.ClockCycleIsTotal : Prop :=
  ∀ s : State, s.cfg.Legal →
    (∀ v rest, s.stim = .input v :: rest → ∃ t, step s = .next t) ∧
    (s.stim = [] → ∃ t, step s = .next t)

/-- R67, R113: every operation completes, whatever the state: none faults and none is refused. In states no run
reaches, where the spec states no value, it completes with a free value (entries 5, 7). -/
def Obligations.OperationsAlwaysComplete : Prop :=
  ∀ (i : Instr) (s : State), ∃ t, exec i s = .next t

/-- R2: a parameter set outside the legal ranges gets no behaviour, `CONFIRM_T >= PAUSE_T` among them. -/
def Obligations.IllegalParametersRefused : Prop :=
  ∀ s : State,
    (¬ s.cfg.Legal → step s = .refused .illegalParameters) ∧
    (s.cfg.pauseT ≤ s.cfg.confirmT → step s = .refused .illegalParameters) ∧
    ((∃ t, step s = .next t) → s.cfg.Legal)

/-- R57: a harness's event word runs the cycle it names exactly when the state derives it; with a reserved bit
it is refused by that name, and otherwise as inconsistent. -/
def Obligations.HarnessEventWords : Prop :=
  ∀ (s : State) (w : EvtWord) (rest : List Stim),
    s.cfg.Legal → s.stim = .event w :: rest →
    step s =
      if w.getLsbD 6 = true ∨ w.getLsbD 7 = true then .refused .reservedEvtBits
      else if w = s.evt (evtInput w) then step { s with stim := .input (evtInput w) :: rest }
      else .refused .inconsistentEvt

/-- R61, R99, R118: a handler-level call runs the procedure on a state that keeps R35's invariants; on any
other state it is refused, an Append on a full buffer by its own name. That the refusal stands where the vectors
L1.7 and L1.8 print a result is the model's choice (entry 27), and so is that the call is the procedure and nothing
else: no clock cycle, no count, no clearing of `out_valid`, no timer (entry 15). -/
def Obligations.HandlerCallsChecked : Prop :=
  ∀ (s : State) (c : Call) (rest : List Stim),
    s.cfg.Legal → s.stim = .call c :: rest →
    (s.Inv → step s = runCall c { s with stim := rest }) ∧
    (¬ s.Inv → (∀ b, c ≠ .append b) → step s = .refused .invariantBroken) ∧
    (¬ s.Inv → ∀ b, c = .append b →
      step s = if 4 ≤ s.bufLen.toNat then .refused .appendToFullBuffer else .refused .invariantBroken)

/-! ### The operations of debounce_fsm -/

/-- R71: EDGE_LATCH sets the pending flag on a falling edge and nothing else, and is performed in every cycle
that has one. -/
def Obligations.EdgeLatchEffect : Prop :=
  (∀ (s : State) (lvl : Level), exec (.edgeLatch lvl) s =
    .next { s with edgePend := s.edgePend || (s.lineQ == .released && lvl == .pressed) }) ∧
  ∀ (s : State) (v : InWord) (lvl : Level), .edgeLatch lvl ∈ cycleOps s v ↔
    inRst v = false ∧ s.lineQ = .released ∧ inLevel v = .pressed ∧ lvl = .pressed

/-- R72: LINE_SAMPLE records the line level and nothing else, in every cycle without reset. -/
def Obligations.LineSampleEffect : Prop :=
  (∀ (s : State) (lvl : Level), exec (.lineSample lvl) s = .next { s with lineQ := lvl }) ∧
  ∀ (s : State) (v : InWord) (lvl : Level), .lineSample lvl ∈ cycleOps s v ↔
    inRst v = false ∧ lvl = inLevel v

/-- R74: FIRE disables notification, takes the pending edge and loads the one-shot, and nothing else; phase 5
performs it exactly when notification is enabled and an edge is pending. -/
def Obligations.FireEffect : Prop :=
  (∀ s : State, exec .fire s =
    .next { s with edgeEn := false, edgePend := false, dbCnt := s.cfg.debounceCycles }) ∧
  (∀ s : State, firePhase s = perform (s.edgeEn && s.edgePend) .fire s) ∧
  ∀ (s : State) (v : InWord), .fire ∉ cycleOps s v

/-- R75: ONESHOT_ADV counts the debounce timer down by one and nothing else, and is performed while the timer
is not idle. -/
def Obligations.OneshotAdvEffect : Prop :=
  (∀ s : State, exec .oneshotAdv s = .next { s with dbCnt := s.dbCnt - 1 }) ∧
  ∀ (s : State) (v : InWord), .oneshotAdv ∈ cycleOps s v ↔ inRst v = false ∧ s.dbCnt ≠ 0

/-- R77: EXPIRE_PRESS leaves a new session at zero phase with both run counters 0, whether or not a session was
open, and leaves the code buffer, `ready`, `edge_en`, `edge_pend` and everything else as they were. -/
def Obligations.ExpirePressEffect : Prop :=
  (∀ s : State, exec .expirePress s =
    .next { s with sess := true, low := 0, high := 0, tkCnt := s.cfg.tickCycles }) ∧
  ∀ (s : State) (v : InWord), .expirePress ∈ cycleOps s v ↔
    inRst v = false ∧ s.dbCnt = 1 ∧ inLevel v = .pressed

/-- R78: EXPIRE_BOUNCE clears the pending edge and re-enables notification, and nothing else. -/
def Obligations.ExpireBounceEffect : Prop :=
  (∀ s : State, exec .expireBounce s = .next { s with edgePend := false, edgeEn := true }) ∧
  ∀ (s : State) (v : InWord), .expireBounce ∈ cycleOps s v ↔
    inRst v = false ∧ s.dbCnt = 1 ∧ inLevel v = .released

/-! ### The operations of duration_accumulator -/

/-- R81: TICK_ADV advances the tick's phase in a session, reloading at 1, and does nothing outside one. That 0
stays 0 in a session is deduced from R4 (entry 6). -/
def Obligations.TickAdvEffect : Prop :=
  (∀ s : State, exec .tickAdv s = .next { s with
    tkCnt := if s.sess = true then (if s.tkCnt = 1 then s.cfg.tickCycles else s.tkCnt - 1) else s.tkCnt }) ∧
  ∀ (s : State) (v : InWord), .tickAdv ∈ cycleOps s v ↔ inRst v = false ∧ s.sess = true

/-- R85: TICK_PRESS adds one to `low`, stopping at `2^CNT_W - 1`, and nothing else; it is performed in the
ticks that sample the line pressed. -/
def Obligations.TickPressEffect : Prop :=
  (∀ s : State, exec .tickPress s = .next { s with low := min (s.low + 1) (2 ^ s.cfg.cntW - 1) }) ∧
  ∀ (s : State) (v : InWord), .tickPress ∈ cycleOps s v ↔
    inRst v = false ∧ s.sess = true ∧ s.tkCnt = 1 ∧ inLevel v = .pressed

/-- R86, R95: TICK_RELEASE adds one to `high`, then ends the code at the pause threshold, and at neither
threshold writes nothing more; it is performed in the ticks that sample the line released. Where the sum does
not fit the counter the spec states no value, and the statement holds for every one (entry 5). -/
def Obligations.TickReleaseWithoutConfirm : Prop :=
  (∀ s : State, s.cfg.confirmT ≠ s.cfg.pauseT → s.highNext ≠ s.cfg.confirmT →
    exec .tickRelease s =
      if s.highNext = s.cfg.pauseT then
        .next { s with
          sess := false, tkCnt := 0, low := 0, high := 0
          ovr := s.ovr || s.ready, snapLen := s.bufLen, snapSym := s.bufSym
          bufLen := 0#3, bufSym := 0#4, ready := true }
      else .next { s with high := s.highNext }) ∧
  (∀ s : State, s.high + 1 < 2 ^ s.cfg.cntW → s.highNext = s.high + 1) ∧
  ∀ (s : State) (v : InWord), .tickRelease ∈ cycleOps s v ↔
    inRst v = false ∧ s.sess = true ∧ s.tkCnt = 1 ∧ inLevel v = .released

/-- R86, R91, R95: a TICK_RELEASE that reaches the release-confirm threshold is CONFIRM on the counted state,
and nothing after it. -/
def Obligations.TickReleaseConfirms : Prop :=
  ∀ s : State, s.cfg.confirmT ≠ s.cfg.pauseT → s.highNext = s.cfg.confirmT →
    exec .tickRelease s = exec .confirm { s with high := s.highNext }

/-! ### The operations of morse_symbol_classifier -/

/-- R98: Append writes the symbol into the bit at the buffer's length, leaves every other bit, and adds one to
the length. -/
def Obligations.AppendInsertsOneSymbol : Prop :=
  ∀ (s : State) (b : Sym), s.bufLen.toNat < 4 →
    ∃ syms : CodeSym, append b s = { s with bufSym := syms, bufLen := s.bufLen + 1#3 } ∧
      (∀ i : Nat, i < 4 →
        syms.getLsbD i = if i = s.bufLen.toNat then (b == .dash) else s.bufSym.getLsbD i) ∧
      (s.bufLen + 1#3).toNat = s.bufLen.toNat + 1

/-- R90, R91: CONFIRM on a buffer of at most two symbols appends a Dash exactly when `low > LONG_T`, zeroes
`low`, re-enables notification, and changes nothing else: `high`, `edge_pend` and the session stay. -/
def Obligations.ConfirmAddsSymbol : Prop :=
  ∀ s : State, s.bufLen.toNat < 3 →
    exec .confirm s = .next { s with
      bufSym := insertSym s.bufSym s.bufLen (if s.cfg.longT < s.low then .dash else .dot)
      bufLen := s.bufLen + 1#3, low := 0, edgeEn := true }

/-- R91, R92: CONFIRM that appends the fourth symbol ends the session and the code in the same step, with
`edge_en` left enabled. -/
def Obligations.ConfirmEndsFullCode : Prop :=
  ∀ s : State, s.bufLen.toNat = 3 →
    exec .confirm s = .next { s with
      edgeEn := true, sess := false, tkCnt := 0, low := 0, high := 0
      ovr := s.ovr || s.ready, snapLen := 4#3
      snapSym := insertSym s.bufSym s.bufLen (if s.cfg.longT < s.low then .dash else .dot)
      bufLen := 0#3, bufSym := 0#4, ready := true }

/-- R99: a handler-level Append on a full working buffer is refused by its own name. No state that keeps R35 has a
full buffer; a CONFIRM that finds one still completes with its other effects, the code left to free values within
`buf_len`'s range (the model's choice, entry 7). -/
def Obligations.AppendToFullBuffer : Prop :=
  ∀ s : State, 4 ≤ s.bufLen.toNat →
    (∀ (b : Sym) (rest : List Stim), s.cfg.Legal → s.stim = .call (.append b) :: rest →
      step s = .refused .appendToFullBuffer) ∧
    ¬ s.Inv ∧
    ∃ (len : CodeLen) (syms : CodeSym), len.toNat ≤ 4 ∧
      exec .confirm s =
        if len = 4#3 then .next { s with
          edgeEn := true, sess := false, tkCnt := 0, low := 0, high := 0
          ovr := s.ovr || s.ready, snapLen := 4#3, snapSym := syms
          bufLen := 0#3, bufSym := 0#4, ready := true }
        else .next { s with bufLen := len, bufSym := syms, low := 0, edgeEn := true }

/-- R92, R93, R94, R100, R102: END_FULL and END_PAUSE stop the sampler, zero both counters and the session
flag, freeze the buffer into the snapshot, clear it, raise Ready, and set `ovr` exactly when an earlier code was
still ready; nothing else changes. -/
def Obligations.EndOfCodeEffect : Prop :=
  ∀ s : State, ∃ t, exec .endFull s = .next t ∧ exec .endPause s = .next t ∧
    t = { s with
      sess := false, tkCnt := 0, low := 0, high := 0
      ovr := s.ovr || s.ready, snapLen := s.bufLen, snapSym := s.bufSym
      bufLen := 0#3, bufSym := 0#4, ready := true }

/-! ### The operations of code_buffer_with_ready_flag and morse_to_ascii_lut, and RESET -/

/-- R103: CONSUME writes the ROM's byte for the snapshot to `out_char`, raises `out_valid` and clears `ready`, and
writes no other register; the snapshot stays. It also leaves the ROM data lines empty, a field of the model's own
(entry 8). It is performed when `ack` meets a ready code. -/
def Obligations.ConsumeEffect : Prop :=
  (∀ s : State, exec .consume s = .next { s with
    outChar := rom s.cfg (s.snapLen ++ s.snapSym), outValid := true, ready := false, romData := none }) ∧
  ∀ (s : State) (v : InWord), .consume ∈ cycleOps s v ↔
    inRst v = false ∧ inAck v = true ∧ s.ready = true

/-- R104: ACK_IDLE has no effect, and is performed when `ack` finds nothing ready. -/
def Obligations.AckIdleEffect : Prop :=
  (∀ s : State, exec .ackIdle s = .next s) ∧
  ∀ (s : State) (v : InWord), .ackIdle ∈ cycleOps s v ↔
    inRst v = false ∧ inAck v = true ∧ s.ready = false

/-- R110: every one of the 128 addresses holds the byte R110 prints, 26 letters and 102 `SENTINEL`. -/
def Obligations.RomHoldsPrintedTable : Prop :=
  (∀ (p : Params) (a : RomAddr), rom p a = (printedRom.getD a.toNat none).getD p.sentinel) ∧
  printedRom.length = 128 ∧ printedRom.countP Option.isSome = 26 ∧ printedRom.countP Option.isNone = 102

/-- R107: ROM_READ puts the entry of the snapshot's address on the data lines (the model's own field, entry 8)
and writes no register. No cycle performs it outside CONSUME (entry 11). -/
def Obligations.RomReadEffect : Prop :=
  (∀ s : State, exec .romRead s = .next { s with
    romData := some ((printedRom.getD (s.snapLen.toNat * 16 + s.snapSym.toNat) none).getD s.cfg.sentinel) }) ∧
  ∀ (s : State) (v : InWord), .romRead ∉ cycleOps s v

/-- R109: the ROM answers SENTINEL for the empty code, an over-length code, a non-canonical code and the four
unassigned four-symbol patterns, and a letter `A` to `Z` at every other address. -/
def Obligations.SentinelWhereUnassigned : Prop :=
  ∀ (p : Params) (len : CodeLen) (syms : CodeSym),
    (len.toNat = 0 ∨ 5 ≤ len.toNat ∨ (1 ≤ len.toNat ∧ len.toNat ≤ 3 ∧ ¬ Canonical len syms) ∨
      (len.toNat = 4 ∧ (syms = 0xC#4 ∨ syms = 0xA#4 ∨ syms = 0x7#4 ∨ syms = 0xF#4)) →
      rom p (len ++ syms) = p.sentinel) ∧
    (1 ≤ len.toNat ∧ len.toNat ≤ 4 ∧ Canonical len syms ∧
      ¬ (len.toNat = 4 ∧ (syms = 0xC#4 ∨ syms = 0xA#4 ∨ syms = 0x7#4 ∨ syms = 0xF#4)) →
      0x41 ≤ (rom p (len ++ syms)).toNat ∧ (rom p (len ++ syms)).toNat ≤ 0x5A)

/-- R127, R128, R129: RESET gives every register its reset value from any state whatever, and its result keeps
every invariant of R35 and is Idle. That it leaves the parameters, the queue and the count, and empties the ROM data
lines, is the model's choice (entries 8, 24). -/
def Obligations.ResetEffect : Prop :=
  (∀ s : State, exec .reset s = .next
    { cfg := s.cfg, lineQ := .released, edgeEn := true, edgePend := false, dbCnt := 0, sess := false,
      tkCnt := 0, low := 0, high := 0, bufLen := 0#3, bufSym := 0#4, snapLen := 0#3, snapSym := 0#4,
      ready := false, ovr := false, outValid := false, outChar := 0#8, romData := none, stim := s.stim,
      cycle := s.cycle }) ∧
  (∀ s t : State, s.cfg.Legal → exec .reset s = .next t → t.Inv ∧ t.phase = .idle) ∧
  ∀ (s : State) (v : InWord), .reset ∈ cycleOps s v ↔ inRst v = true

/-! ### Rules about the whole machine, cycle by cycle -/

/-- No clock cycle changes the parameters (R37; they are carried in the state, entry 3); each takes one stimulus
and advances the cycle count that R31 allows by one (the queue and the count are the model's own, entry 2). -/
def Obligations.CycleKeepsParameters : Prop :=
  ∀ (s t : State) (v : InWord), NextInput s v → step s = .next t →
    t.cfg = s.cfg ∧ t.stim = s.stim.drop 1 ∧ t.cycle = s.cycle + 1

/-- R105: `out_valid` is 1 exactly after a cycle that consumed; `out_char` then shows the decoded byte, keeps
its value in every other cycle, and is 0 after reset. -/
def Obligations.OutputLifetime : Prop :=
  ∀ (s t : State) (v : InWord), NextInput s v → step s = .next t →
    (t.outValid = true ↔ inRst v = false ∧ inAck v = true ∧ s.ready = true) ∧
    t.outChar = if inRst v then 0#8 else if inAck v && s.ready then rom s.cfg (s.snapLen ++ s.snapSym)
      else s.outChar

/-- R101: apart from reset, the snapshot changes only in a cycle that ends a code, and then `ready` is 1 after
it and the snapshot is the code that was being built. -/
def Obligations.SnapshotFrozen : Prop :=
  ∀ (s t : State) (v : InWord), NextInput s v → inRst v = false → step s = .next t →
    (t.snapLen ≠ s.snapLen ∨ t.snapSym ≠ s.snapSym → EndsCode s v) ∧
    (EndsCode s v → t.ready = true ∧ t.bufLen = 0#3 ∧ t.bufSym = 0#4 ∧
      (PauseTick s v → t.snapLen = s.bufLen ∧ t.snapSym = s.bufSym) ∧
      (ConfirmTick s v → s.bufLen = 3#3 → t.snapLen = 4#3 ∧ t.snapSym = insertSym s.bufSym 3#3 s.classify))

/-- R28, R102, R106: apart from reset, `ready` is 1 after a cycle that ends a code and otherwise stays unless
consumed; `ovr` is set exactly when a code ends while the earlier one is neither consumed before nor in this
cycle, and stays. -/
def Obligations.ReadyAndOverrun : Prop :=
  ∀ (s t : State) (v : InWord), NextInput s v → inRst v = false → step s = .next t →
    (t.ready = true ↔ EndsCode s v ∨ (s.ready = true ∧ inAck v = false)) ∧
    (t.ovr = true ↔ s.ovr = true ∨ (EndsCode s v ∧ s.ready = true ∧ inAck v = false))

/-- R106: a consume and the end of a code in one cycle, by the pause or by the fourth symbol: the old code's
byte is emitted, the new code is ready in the snapshot, and no overrun is set. -/
def Obligations.ConsumeWithEndOfCode : Prop :=
  ∀ (s t : State) (v : InWord), NextInput s v → inRst v = false → step s = .next t →
    inAck v = true → s.ready = true → EndsCode s v →
    t.outValid = true ∧ t.outChar = rom s.cfg (s.snapLen ++ s.snapSym) ∧ t.ready = true ∧ t.ovr = s.ovr ∧
    (PauseTick s v → t.snapLen = s.bufLen ∧ t.snapSym = s.bufSym) ∧
    (ConfirmTick s v → s.bufLen = 3#3 → t.snapLen = 4#3 ∧ t.snapSym = insertSym s.bufSym 3#3 s.classify)

/-- R73, R19: apart from reset, `edge_en` is cleared only by a fire and set only by a bounce expiry or a
release-confirm. -/
def Obligations.Interlock : Prop :=
  ∀ (s t : State) (v : InWord), NextInput s v → inRst v = false → step s = .next t →
    (s.edgeEn = true → t.edgeEn = false → t.dbCnt = s.cfg.debounceCycles ∧ t.edgePend = false) ∧
    (s.edgeEn = false → t.edgeEn = true →
      (s.dbCnt = 1 ∧ inLevel v = .released) ∨ ConfirmTick s v)

/-- R87: apart from reset, `low` goes down only at a press expiry, a release-confirm or an end of code, and
`high` only at a press expiry or an end of code (or where it does not fit its width); a change of level zeroes
neither. -/
def Obligations.CountersZeroedOnlyThere : Prop :=
  ∀ (s t : State) (v : InWord), NextInput s v → inRst v = false → step s = .next t →
    s.low ≤ s.cfg.cntMax → s.high < s.cfg.cntMax →
    (t.low < s.low → t.low = 0 ∧ ((s.dbCnt = 1 ∧ inLevel v = .pressed) ∨ ConfirmTick s v ∨ PauseTick s v)) ∧
    (t.high < s.high → t.high = 0 ∧ ((s.dbCnt = 1 ∧ inLevel v = .pressed) ∨ EndsCode s v))

/-- R88: with the invariants, a tick that neither confirms, nor ends a code, nor meets a press expiry
increments exactly one counter, and outside a session both stay 0 unless a press opens one (still 0). -/
def Obligations.OneCounterPerTick : Prop :=
  ∀ (s t : State) (v : InWord), NextInput s v → inRst v = false → step s = .next t → s.Inv →
    (s.tick = true → ¬ ConfirmTick s v → ¬ PauseTick s v → ¬ (s.dbCnt = 1 ∧ inLevel v = .pressed) →
      (inLevel v = .pressed → t.low = min (s.low + 1) s.cfg.cntMax ∧ t.high = s.high) ∧
      (inLevel v = .released → t.high = s.high + 1 ∧ t.low = s.low)) ∧
    (s.sess = false → t.low = 0 ∧ t.high = 0)

/-- R96, R35 item 10: once a session is past its release-confirm no cycle appends to its code: the buffer
stays, or the code ends with the buffer as it was; and the session stays past it until it ends or a press
supersedes it. -/
def Obligations.OneSymbolPerSession : Prop :=
  ∀ (s t : State) (v : InWord), NextInput s v → inRst v = false → step s = .next t → s.Inv →
    s.sess = true → s.cfg.confirmT ≤ s.high →
    ((t.bufLen = s.bufLen ∧ t.bufSym = s.bufSym) ∨
      (PauseTick s v ∧ t.snapLen = s.bufLen ∧ t.snapSym = s.bufSym ∧ t.bufLen = 0#3)) ∧
    (t.sess = true → s.cfg.confirmT ≤ t.high ∨ (s.dbCnt = 1 ∧ inLevel v = .pressed ∧ t.high = 0))

/-- R89, R98: apart from reset, the working buffer changes only at a release-confirm or an end of code, and a
release-confirm that does not fill it adds exactly the classified symbol. -/
def Obligations.BufferChangesOnlyAtConfirm : Prop :=
  ∀ (s t : State) (v : InWord), NextInput s v → inRst v = false → step s = .next t →
    (¬ ConfirmTick s v → ¬ PauseTick s v → t.bufLen = s.bufLen ∧ t.bufSym = s.bufSym) ∧
    (ConfirmTick s v → s.bufLen.toNat < 3 →
      t.bufLen = s.bufLen + 1#3 ∧ t.bufSym = insertSym s.bufSym s.bufLen s.classify)

/-- R137, R22: apart from reset, a session ends only with its code: when `busy` falls, a code has just ended
and is ready; a superseding press leaves `busy` 1. -/
def Obligations.BusyFallsOnlyAtEndOfCode : Prop :=
  ∀ (s t : State) (v : InWord), NextInput s v → inRst v = false → step s = .next t →
    (s.sess = true → t.sess = false → EndsCode s v ∧ t.ready = true) ∧
    (s.sess = false → t.sess = true → s.dbCnt = 1 ∧ inLevel v = .pressed)

/-- R68, the coincidences with an expiry: a bounce clears an edge latched in the same cycle and nothing fires;
a press keeps the latched edge and nothing fires when notification is off; a pressed tick of the old session
does not reach the new one. -/
def Obligations.ExpiryCoincidences : Prop :=
  ∀ (s t : State) (v : InWord), NextInput s v → inRst v = false → step s = .next t → s.dbCnt = 1 →
    (inLevel v = .released → t.edgeEn = true ∧ t.edgePend = false ∧ t.dbCnt = 0) ∧
    (inLevel v = .pressed → t.sess = true ∧ t.low = 0 ∧ t.high = 0 ∧ t.tkCnt = s.cfg.tickCycles) ∧
    (inLevel v = .pressed → s.edgeEn = false → t.edgeEn = false ∧ t.dbCnt = 0 ∧
      (t.edgePend = true ↔ s.edgePend = true ∨ s.lineQ = .released))

/-- R134: a pending edge fires in the very cycle of the release-confirm that re-enables notification, when no
expiry falls in that cycle. -/
def Obligations.PendingEdgeFiresAtConfirm : Prop :=
  ∀ (s t : State) (v : InWord), NextInput s v → inRst v = false → step s = .next t →
    ConfirmTick s v → s.dbCnt ≠ 1 → s.edgePend = true →
    t.edgeEn = false ∧ t.edgePend = false ∧ t.dbCnt = s.cfg.debounceCycles

/-- R130: a line held pressed across a reset fires in the first cycle after it. -/
def Obligations.HeldPressFiresAfterReset : Prop :=
  ∀ (s : State) (v : InWord), s.cfg.Legal → inRst v = false → inLevel v = .pressed →
    ∃ t, clock v (resetRegisters s) = .next t ∧
      t.lineQ = .pressed ∧ t.edgeEn = false ∧ t.edgePend = false ∧ t.dbCnt = s.cfg.debounceCycles ∧
      t.sess = false

/-! ### Invariants -/

/-- R128: the reset state keeps every invariant of R35, with what `Kept` adds (entry 14), for every legal build and
for the one that `State.reset` carries (entry 3). -/
def Obligations.InvariantsHoldAtReset : Prop :=
  Kept State.reset ∧ InRange State.reset ∧
  ∀ p : Params, p.Legal → Kept { State.reset with cfg := p }

/-- R35, items 1 to 9: every clock cycle keeps them, from every state that has them (with what an induction
over the step needs beside them, entry 14). -/
def Obligations.CyclesKeepInvariants : Prop :=
  ∀ (s t : State) (v : InWord), NextInput s v → Kept s → step s = .next t → Kept t

/-- R35, items 1 to 9, as the rule has them: after any number of cycles with any inputs from a clean launch
(R144), and no such run stops. -/
def Obligations.InvariantsHoldInEveryRun : Prop :=
  ∀ (vs : List InWord) (s : State), CleanLaunch s → ∃ t, feed vs s = .next t ∧ t.Inv

/-- Every step keeps the registers in the ranges that 10_state.md gives them, whatever it takes, a harness's calls
among them. In a state in range that breaks R35 (a confirm on a full buffer, a released tick at the greatest
`high`), which no run reaches and for which the spec states no value, it rests on the model's choices: a counter
is a Nat (entry 4), and the free values are taken within the ranges (entries 5, 7). -/
def Obligations.StepsKeepRegisterRanges : Prop :=
  ∀ s t : State, InRange s → step s = .next t → InRange t

/-! ### Runs -/

/-- R80, R132, R79's decision: from a running debounce window, whatever the inputs, each cycle counts it down
by one and notification stays off until the last, in which the line level alone decides: released re-enables
notification with nothing pending, pressed opens a session at zero phase. -/
def Obligations.OneDecisionPerArming : Prop :=
  ∀ (vs : List InWord) (s : State), s.cfg.Legal → Kept s → 0 < s.dbCnt → vs.length ≤ s.dbCnt →
    (∀ v ∈ vs, inRst v = false) →
    ∃ t, feed vs s = .next t ∧ t.dbCnt = s.dbCnt - vs.length ∧
      (vs.length < s.dbCnt → t.edgeEn = false) ∧
      (vs.length = s.dbCnt → ∀ v, vs.getLast? = some v →
        (inLevel v = .released → t.edgeEn = true ∧ t.edgePend = false) ∧
        (inLevel v = .pressed → t.edgeEn = false ∧ t.sess = true ∧ t.low = 0 ∧ t.high = 0 ∧
          t.tkCnt = s.cfg.tickCycles))

/-- R79: with no session open, a press whose window expires with the line released starts no session and
appends nothing, whatever the line did in between. -/
def Obligations.ShortPressInvisible : Prop :=
  ∀ (vs : List InWord) (v : InWord) (s : State), s.cfg.Legal → Kept s → s.sess = false →
    s.dbCnt = vs.length + 1 → (∀ u ∈ vs ++ [v], inRst u = false) → inLevel v = .released →
    ∃ t, feed (vs ++ [v]) s = .next t ∧ t.sess = false ∧ t.edgeEn = true ∧ t.edgePend = false ∧
      t.dbCnt = 0 ∧ t.bufLen = s.bufLen ∧ t.bufSym = s.bufSym ∧ t.snapLen = s.snapLen ∧
      t.snapSym = s.snapSym ∧ t.ovr = s.ovr

/-- R97, R141: while the line stays pressed and there is no reset, an open session never ends: no code ends,
nothing is appended, and `ready` does not rise, for any number of cycles. -/
def Obligations.HeldPressNeverEnds : Prop :=
  ∀ (vs : List InWord) (s : State), s.cfg.Legal → s.sess = true →
    (∀ v ∈ vs, inRst v = false ∧ inLevel v = .pressed) →
    ∃ t, feed vs s = .next t ∧ t.sess = true ∧ t.bufLen = s.bufLen ∧ t.bufSym = s.bufSym ∧
      t.snapLen = s.snapLen ∧ t.snapSym = s.snapSym ∧ t.ovr = s.ovr ∧ (t.ready = true → s.ready = true)

/-- R81, R82, R85, R133: a session just opened and held pressed for `k` cycles has counted `k / TICK_CYCLES`
pressed ticks, saturating at `2^CNT_W - 1`, and no released one. -/
def Obligations.PressedTicksCounted : Prop :=
  ∀ (vs : List InWord) (s : State), s.cfg.Legal → Kept s →
    s.sess = true → s.tkCnt = s.cfg.tickCycles → s.low = 0 → s.high = 0 →
    (∀ v ∈ vs, inRst v = false ∧ inLevel v = .pressed) →
    ∃ t, feed vs s = .next t ∧ t.sess = true ∧ t.high = 0 ∧
      t.low = min (vs.length / s.cfg.tickCycles) (2 ^ s.cfg.cntW - 1)

/-! ### The step as a function -/

/-- R67: what a clock cycle leaves in the registers is a function of the registers, the parameters and the input
vector alone. The model's own fields (the rest of the queue, the cycle count, the ROM's data lines; entries 2, 8)
have no influence on it, and the free values (entries 5, 7) are functions of the registers. -/
def Obligations.CycleIsFunctionOfRegistersAndInput : Prop :=
  ∀ (s : State) (v : InWord) (rest queue : List Stim) (count : Nat) (lines : Option Byte),
    s.cfg.Legal → s.stim = .input v :: rest →
    ∃ t, step s = .next t ∧
      step { s with stim := .input v :: queue, cycle := count, romData := lines } =
        .next { t with stim := queue, cycle := count + 1 }
end

