-- ==== Sys2Proof/Laws/State.lean ====
section
/-! SUPPORT. What each shared update of the state leaves in each field, so that no proof unfolds a record
update: one lemma per field per update, true by rfl. -/

namespace Sys2Proof.Machine

/-! ### `stopSampler` -/

@[simp] theorem stopSampler_cfg (s : State) : (stopSampler s).cfg = s.cfg := rfl
@[simp] theorem stopSampler_lineQ (s : State) : (stopSampler s).lineQ = s.lineQ := rfl
@[simp] theorem stopSampler_edgeEn (s : State) : (stopSampler s).edgeEn = s.edgeEn := rfl
@[simp] theorem stopSampler_edgePend (s : State) : (stopSampler s).edgePend = s.edgePend := rfl
@[simp] theorem stopSampler_dbCnt (s : State) : (stopSampler s).dbCnt = s.dbCnt := rfl
@[simp] theorem stopSampler_sess (s : State) : (stopSampler s).sess = false := rfl
@[simp] theorem stopSampler_tkCnt (s : State) : (stopSampler s).tkCnt = 0 := rfl
@[simp] theorem stopSampler_low (s : State) : (stopSampler s).low = s.low := rfl
@[simp] theorem stopSampler_high (s : State) : (stopSampler s).high = s.high := rfl
@[simp] theorem stopSampler_bufLen (s : State) : (stopSampler s).bufLen = s.bufLen := rfl
@[simp] theorem stopSampler_bufSym (s : State) : (stopSampler s).bufSym = s.bufSym := rfl
@[simp] theorem stopSampler_snapLen (s : State) : (stopSampler s).snapLen = s.snapLen := rfl
@[simp] theorem stopSampler_snapSym (s : State) : (stopSampler s).snapSym = s.snapSym := rfl
@[simp] theorem stopSampler_ready (s : State) : (stopSampler s).ready = s.ready := rfl
@[simp] theorem stopSampler_ovr (s : State) : (stopSampler s).ovr = s.ovr := rfl
@[simp] theorem stopSampler_outValid (s : State) : (stopSampler s).outValid = s.outValid := rfl
@[simp] theorem stopSampler_outChar (s : State) : (stopSampler s).outChar = s.outChar := rfl
@[simp] theorem stopSampler_romData (s : State) : (stopSampler s).romData = s.romData := rfl
@[simp] theorem stopSampler_stim (s : State) : (stopSampler s).stim = s.stim := rfl
@[simp] theorem stopSampler_cycle (s : State) : (stopSampler s).cycle = s.cycle := rfl

/-! ### `armSampler` -/

@[simp] theorem armSampler_cfg (s : State) : (armSampler s).cfg = s.cfg := rfl
@[simp] theorem armSampler_lineQ (s : State) : (armSampler s).lineQ = s.lineQ := rfl
@[simp] theorem armSampler_edgeEn (s : State) : (armSampler s).edgeEn = s.edgeEn := rfl
@[simp] theorem armSampler_edgePend (s : State) : (armSampler s).edgePend = s.edgePend := rfl
@[simp] theorem armSampler_dbCnt (s : State) : (armSampler s).dbCnt = s.dbCnt := rfl
@[simp] theorem armSampler_sess (s : State) : (armSampler s).sess = true := rfl
@[simp] theorem armSampler_tkCnt (s : State) : (armSampler s).tkCnt = s.cfg.tickCycles := rfl
@[simp] theorem armSampler_low (s : State) : (armSampler s).low = s.low := rfl
@[simp] theorem armSampler_high (s : State) : (armSampler s).high = s.high := rfl
@[simp] theorem armSampler_bufLen (s : State) : (armSampler s).bufLen = s.bufLen := rfl
@[simp] theorem armSampler_bufSym (s : State) : (armSampler s).bufSym = s.bufSym := rfl
@[simp] theorem armSampler_snapLen (s : State) : (armSampler s).snapLen = s.snapLen := rfl
@[simp] theorem armSampler_snapSym (s : State) : (armSampler s).snapSym = s.snapSym := rfl
@[simp] theorem armSampler_ready (s : State) : (armSampler s).ready = s.ready := rfl
@[simp] theorem armSampler_ovr (s : State) : (armSampler s).ovr = s.ovr := rfl
@[simp] theorem armSampler_outValid (s : State) : (armSampler s).outValid = s.outValid := rfl
@[simp] theorem armSampler_outChar (s : State) : (armSampler s).outChar = s.outChar := rfl
@[simp] theorem armSampler_romData (s : State) : (armSampler s).romData = s.romData := rfl
@[simp] theorem armSampler_stim (s : State) : (armSampler s).stim = s.stim := rfl
@[simp] theorem armSampler_cycle (s : State) : (armSampler s).cycle = s.cycle := rfl

/-! ### `endTiming` -/

@[simp] theorem endTiming_cfg (s : State) : (endTiming s).cfg = s.cfg := rfl
@[simp] theorem endTiming_lineQ (s : State) : (endTiming s).lineQ = s.lineQ := rfl
@[simp] theorem endTiming_edgeEn (s : State) : (endTiming s).edgeEn = s.edgeEn := rfl
@[simp] theorem endTiming_edgePend (s : State) : (endTiming s).edgePend = s.edgePend := rfl
@[simp] theorem endTiming_dbCnt (s : State) : (endTiming s).dbCnt = s.dbCnt := rfl
@[simp] theorem endTiming_sess (s : State) : (endTiming s).sess = false := rfl
@[simp] theorem endTiming_tkCnt (s : State) : (endTiming s).tkCnt = 0 := rfl
@[simp] theorem endTiming_low (s : State) : (endTiming s).low = 0 := rfl
@[simp] theorem endTiming_high (s : State) : (endTiming s).high = 0 := rfl
@[simp] theorem endTiming_bufLen (s : State) : (endTiming s).bufLen = s.bufLen := rfl
@[simp] theorem endTiming_bufSym (s : State) : (endTiming s).bufSym = s.bufSym := rfl
@[simp] theorem endTiming_snapLen (s : State) : (endTiming s).snapLen = s.snapLen := rfl
@[simp] theorem endTiming_snapSym (s : State) : (endTiming s).snapSym = s.snapSym := rfl
@[simp] theorem endTiming_ready (s : State) : (endTiming s).ready = s.ready := rfl
@[simp] theorem endTiming_ovr (s : State) : (endTiming s).ovr = s.ovr := rfl
@[simp] theorem endTiming_outValid (s : State) : (endTiming s).outValid = s.outValid := rfl
@[simp] theorem endTiming_outChar (s : State) : (endTiming s).outChar = s.outChar := rfl
@[simp] theorem endTiming_romData (s : State) : (endTiming s).romData = s.romData := rfl
@[simp] theorem endTiming_stim (s : State) : (endTiming s).stim = s.stim := rfl
@[simp] theorem endTiming_cycle (s : State) : (endTiming s).cycle = s.cycle := rfl

/-! ### `endCode` -/

@[simp] theorem endCode_cfg (s : State) : (endCode s).cfg = s.cfg := rfl
@[simp] theorem endCode_lineQ (s : State) : (endCode s).lineQ = s.lineQ := rfl
@[simp] theorem endCode_edgeEn (s : State) : (endCode s).edgeEn = s.edgeEn := rfl
@[simp] theorem endCode_edgePend (s : State) : (endCode s).edgePend = s.edgePend := rfl
@[simp] theorem endCode_dbCnt (s : State) : (endCode s).dbCnt = s.dbCnt := rfl
@[simp] theorem endCode_sess (s : State) : (endCode s).sess = s.sess := rfl
@[simp] theorem endCode_tkCnt (s : State) : (endCode s).tkCnt = s.tkCnt := rfl
@[simp] theorem endCode_low (s : State) : (endCode s).low = s.low := rfl
@[simp] theorem endCode_high (s : State) : (endCode s).high = s.high := rfl
@[simp] theorem endCode_bufLen (s : State) : (endCode s).bufLen = 0#3 := rfl
@[simp] theorem endCode_bufSym (s : State) : (endCode s).bufSym = 0#4 := rfl
@[simp] theorem endCode_snapLen (s : State) : (endCode s).snapLen = s.bufLen := rfl
@[simp] theorem endCode_snapSym (s : State) : (endCode s).snapSym = s.bufSym := rfl
@[simp] theorem endCode_ready (s : State) : (endCode s).ready = true := rfl
@[simp] theorem endCode_ovr (s : State) : (endCode s).ovr = (s.ovr || s.ready) := rfl
@[simp] theorem endCode_outValid (s : State) : (endCode s).outValid = s.outValid := rfl
@[simp] theorem endCode_outChar (s : State) : (endCode s).outChar = s.outChar := rfl
@[simp] theorem endCode_romData (s : State) : (endCode s).romData = s.romData := rfl
@[simp] theorem endCode_stim (s : State) : (endCode s).stim = s.stim := rfl
@[simp] theorem endCode_cycle (s : State) : (endCode s).cycle = s.cycle := rfl

/-! ### `beginCycle` -/

@[simp] theorem beginCycle_cfg (s : State) : (beginCycle s).cfg = s.cfg := rfl
@[simp] theorem beginCycle_lineQ (s : State) : (beginCycle s).lineQ = s.lineQ := rfl
@[simp] theorem beginCycle_edgeEn (s : State) : (beginCycle s).edgeEn = s.edgeEn := rfl
@[simp] theorem beginCycle_edgePend (s : State) : (beginCycle s).edgePend = s.edgePend := rfl
@[simp] theorem beginCycle_dbCnt (s : State) : (beginCycle s).dbCnt = s.dbCnt := rfl
@[simp] theorem beginCycle_sess (s : State) : (beginCycle s).sess = s.sess := rfl
@[simp] theorem beginCycle_tkCnt (s : State) : (beginCycle s).tkCnt = s.tkCnt := rfl
@[simp] theorem beginCycle_low (s : State) : (beginCycle s).low = s.low := rfl
@[simp] theorem beginCycle_high (s : State) : (beginCycle s).high = s.high := rfl
@[simp] theorem beginCycle_bufLen (s : State) : (beginCycle s).bufLen = s.bufLen := rfl
@[simp] theorem beginCycle_bufSym (s : State) : (beginCycle s).bufSym = s.bufSym := rfl
@[simp] theorem beginCycle_snapLen (s : State) : (beginCycle s).snapLen = s.snapLen := rfl
@[simp] theorem beginCycle_snapSym (s : State) : (beginCycle s).snapSym = s.snapSym := rfl
@[simp] theorem beginCycle_ready (s : State) : (beginCycle s).ready = s.ready := rfl
@[simp] theorem beginCycle_ovr (s : State) : (beginCycle s).ovr = s.ovr := rfl
@[simp] theorem beginCycle_outValid (s : State) : (beginCycle s).outValid = false := rfl
@[simp] theorem beginCycle_outChar (s : State) : (beginCycle s).outChar = s.outChar := rfl
@[simp] theorem beginCycle_romData (s : State) : (beginCycle s).romData = none := rfl
@[simp] theorem beginCycle_stim (s : State) : (beginCycle s).stim = s.stim := rfl
@[simp] theorem beginCycle_cycle (s : State) : (beginCycle s).cycle = s.cycle := rfl

/-! ### `countCycle` -/

@[simp] theorem countCycle_cfg (s : State) : (countCycle s).cfg = s.cfg := rfl
@[simp] theorem countCycle_lineQ (s : State) : (countCycle s).lineQ = s.lineQ := rfl
@[simp] theorem countCycle_edgeEn (s : State) : (countCycle s).edgeEn = s.edgeEn := rfl
@[simp] theorem countCycle_edgePend (s : State) : (countCycle s).edgePend = s.edgePend := rfl
@[simp] theorem countCycle_dbCnt (s : State) : (countCycle s).dbCnt = s.dbCnt := rfl
@[simp] theorem countCycle_sess (s : State) : (countCycle s).sess = s.sess := rfl
@[simp] theorem countCycle_tkCnt (s : State) : (countCycle s).tkCnt = s.tkCnt := rfl
@[simp] theorem countCycle_low (s : State) : (countCycle s).low = s.low := rfl
@[simp] theorem countCycle_high (s : State) : (countCycle s).high = s.high := rfl
@[simp] theorem countCycle_bufLen (s : State) : (countCycle s).bufLen = s.bufLen := rfl
@[simp] theorem countCycle_bufSym (s : State) : (countCycle s).bufSym = s.bufSym := rfl
@[simp] theorem countCycle_snapLen (s : State) : (countCycle s).snapLen = s.snapLen := rfl
@[simp] theorem countCycle_snapSym (s : State) : (countCycle s).snapSym = s.snapSym := rfl
@[simp] theorem countCycle_ready (s : State) : (countCycle s).ready = s.ready := rfl
@[simp] theorem countCycle_ovr (s : State) : (countCycle s).ovr = s.ovr := rfl
@[simp] theorem countCycle_outValid (s : State) : (countCycle s).outValid = s.outValid := rfl
@[simp] theorem countCycle_outChar (s : State) : (countCycle s).outChar = s.outChar := rfl
@[simp] theorem countCycle_romData (s : State) : (countCycle s).romData = s.romData := rfl
@[simp] theorem countCycle_stim (s : State) : (countCycle s).stim = s.stim := rfl
@[simp] theorem countCycle_cycle (s : State) : (countCycle s).cycle = s.cycle + 1 := rfl

/-! ### `resetRegisters` -/

@[simp] theorem resetRegisters_cfg (s : State) : (resetRegisters s).cfg = s.cfg := rfl
@[simp] theorem resetRegisters_lineQ (s : State) : (resetRegisters s).lineQ = .released := rfl
@[simp] theorem resetRegisters_edgeEn (s : State) : (resetRegisters s).edgeEn = true := rfl
@[simp] theorem resetRegisters_edgePend (s : State) : (resetRegisters s).edgePend = false := rfl
@[simp] theorem resetRegisters_dbCnt (s : State) : (resetRegisters s).dbCnt = 0 := rfl
@[simp] theorem resetRegisters_sess (s : State) : (resetRegisters s).sess = false := rfl
@[simp] theorem resetRegisters_tkCnt (s : State) : (resetRegisters s).tkCnt = 0 := rfl
@[simp] theorem resetRegisters_low (s : State) : (resetRegisters s).low = 0 := rfl
@[simp] theorem resetRegisters_high (s : State) : (resetRegisters s).high = 0 := rfl
@[simp] theorem resetRegisters_bufLen (s : State) : (resetRegisters s).bufLen = 0#3 := rfl
@[simp] theorem resetRegisters_bufSym (s : State) : (resetRegisters s).bufSym = 0#4 := rfl
@[simp] theorem resetRegisters_snapLen (s : State) : (resetRegisters s).snapLen = 0#3 := rfl
@[simp] theorem resetRegisters_snapSym (s : State) : (resetRegisters s).snapSym = 0#4 := rfl
@[simp] theorem resetRegisters_ready (s : State) : (resetRegisters s).ready = false := rfl
@[simp] theorem resetRegisters_ovr (s : State) : (resetRegisters s).ovr = false := rfl
@[simp] theorem resetRegisters_outValid (s : State) : (resetRegisters s).outValid = false := rfl
@[simp] theorem resetRegisters_outChar (s : State) : (resetRegisters s).outChar = 0#8 := rfl
@[simp] theorem resetRegisters_romData (s : State) : (resetRegisters s).romData = none := rfl
@[simp] theorem resetRegisters_stim (s : State) : (resetRegisters s).stim = s.stim := rfl
@[simp] theorem resetRegisters_cycle (s : State) : (resetRegisters s).cycle = s.cycle := rfl

/-! ### `closePress` -/

@[simp] theorem closePress_cfg (s : State) : (closePress s).cfg = s.cfg := rfl
@[simp] theorem closePress_lineQ (s : State) : (closePress s).lineQ = s.lineQ := rfl
@[simp] theorem closePress_edgeEn (s : State) : (closePress s).edgeEn = true := rfl
@[simp] theorem closePress_edgePend (s : State) : (closePress s).edgePend = s.edgePend := rfl
@[simp] theorem closePress_dbCnt (s : State) : (closePress s).dbCnt = s.dbCnt := rfl
@[simp] theorem closePress_sess (s : State) : (closePress s).sess = s.sess := rfl
@[simp] theorem closePress_tkCnt (s : State) : (closePress s).tkCnt = s.tkCnt := rfl
@[simp] theorem closePress_low (s : State) : (closePress s).low = 0 := rfl
@[simp] theorem closePress_high (s : State) : (closePress s).high = s.high := rfl
@[simp] theorem closePress_bufLen (s : State) : (closePress s).bufLen = s.bufLen := rfl
@[simp] theorem closePress_bufSym (s : State) : (closePress s).bufSym = s.bufSym := rfl
@[simp] theorem closePress_snapLen (s : State) : (closePress s).snapLen = s.snapLen := rfl
@[simp] theorem closePress_snapSym (s : State) : (closePress s).snapSym = s.snapSym := rfl
@[simp] theorem closePress_ready (s : State) : (closePress s).ready = s.ready := rfl
@[simp] theorem closePress_ovr (s : State) : (closePress s).ovr = s.ovr := rfl
@[simp] theorem closePress_outValid (s : State) : (closePress s).outValid = s.outValid := rfl
@[simp] theorem closePress_outChar (s : State) : (closePress s).outChar = s.outChar := rfl
@[simp] theorem closePress_romData (s : State) : (closePress s).romData = s.romData := rfl
@[simp] theorem closePress_stim (s : State) : (closePress s).stim = s.stim := rfl
@[simp] theorem closePress_cycle (s : State) : (closePress s).cycle = s.cycle := rfl

/-! ### `append` -/

@[simp] theorem append_cfg (b : Sym) (s : State) : (append b s).cfg = s.cfg := rfl
@[simp] theorem append_lineQ (b : Sym) (s : State) : (append b s).lineQ = s.lineQ := rfl
@[simp] theorem append_edgeEn (b : Sym) (s : State) : (append b s).edgeEn = s.edgeEn := rfl
@[simp] theorem append_edgePend (b : Sym) (s : State) : (append b s).edgePend = s.edgePend := rfl
@[simp] theorem append_dbCnt (b : Sym) (s : State) : (append b s).dbCnt = s.dbCnt := rfl
@[simp] theorem append_sess (b : Sym) (s : State) : (append b s).sess = s.sess := rfl
@[simp] theorem append_tkCnt (b : Sym) (s : State) : (append b s).tkCnt = s.tkCnt := rfl
@[simp] theorem append_low (b : Sym) (s : State) : (append b s).low = s.low := rfl
@[simp] theorem append_high (b : Sym) (s : State) : (append b s).high = s.high := rfl
@[simp] theorem append_bufLen (b : Sym) (s : State) : (append b s).bufLen = s.lenNext b := rfl
@[simp] theorem append_bufSym (b : Sym) (s : State) : (append b s).bufSym = s.symNext b := rfl
@[simp] theorem append_snapLen (b : Sym) (s : State) : (append b s).snapLen = s.snapLen := rfl
@[simp] theorem append_snapSym (b : Sym) (s : State) : (append b s).snapSym = s.snapSym := rfl
@[simp] theorem append_ready (b : Sym) (s : State) : (append b s).ready = s.ready := rfl
@[simp] theorem append_ovr (b : Sym) (s : State) : (append b s).ovr = s.ovr := rfl
@[simp] theorem append_outValid (b : Sym) (s : State) : (append b s).outValid = s.outValid := rfl
@[simp] theorem append_outChar (b : Sym) (s : State) : (append b s).outChar = s.outChar := rfl
@[simp] theorem append_romData (b : Sym) (s : State) : (append b s).romData = s.romData := rfl
@[simp] theorem append_stim (b : Sym) (s : State) : (append b s).stim = s.stim := rfl
@[simp] theorem append_cycle (b : Sym) (s : State) : (append b s).cycle = s.cycle := rfl

/-! ### `State.withInputs` -/

@[simp] theorem withInputs_cfg (s : State) (vs : List InWord) : (s.withInputs vs).cfg = s.cfg := rfl
@[simp] theorem withInputs_lineQ (s : State) (vs : List InWord) : (s.withInputs vs).lineQ = s.lineQ := rfl
@[simp] theorem withInputs_edgeEn (s : State) (vs : List InWord) : (s.withInputs vs).edgeEn = s.edgeEn := rfl
@[simp] theorem withInputs_edgePend (s : State) (vs : List InWord) : (s.withInputs vs).edgePend = s.edgePend := rfl
@[simp] theorem withInputs_dbCnt (s : State) (vs : List InWord) : (s.withInputs vs).dbCnt = s.dbCnt := rfl
@[simp] theorem withInputs_sess (s : State) (vs : List InWord) : (s.withInputs vs).sess = s.sess := rfl
@[simp] theorem withInputs_tkCnt (s : State) (vs : List InWord) : (s.withInputs vs).tkCnt = s.tkCnt := rfl
@[simp] theorem withInputs_low (s : State) (vs : List InWord) : (s.withInputs vs).low = s.low := rfl
@[simp] theorem withInputs_high (s : State) (vs : List InWord) : (s.withInputs vs).high = s.high := rfl
@[simp] theorem withInputs_bufLen (s : State) (vs : List InWord) : (s.withInputs vs).bufLen = s.bufLen := rfl
@[simp] theorem withInputs_bufSym (s : State) (vs : List InWord) : (s.withInputs vs).bufSym = s.bufSym := rfl
@[simp] theorem withInputs_snapLen (s : State) (vs : List InWord) : (s.withInputs vs).snapLen = s.snapLen := rfl
@[simp] theorem withInputs_snapSym (s : State) (vs : List InWord) : (s.withInputs vs).snapSym = s.snapSym := rfl
@[simp] theorem withInputs_ready (s : State) (vs : List InWord) : (s.withInputs vs).ready = s.ready := rfl
@[simp] theorem withInputs_ovr (s : State) (vs : List InWord) : (s.withInputs vs).ovr = s.ovr := rfl
@[simp] theorem withInputs_outValid (s : State) (vs : List InWord) : (s.withInputs vs).outValid = s.outValid := rfl
@[simp] theorem withInputs_outChar (s : State) (vs : List InWord) : (s.withInputs vs).outChar = s.outChar := rfl
@[simp] theorem withInputs_romData (s : State) (vs : List InWord) : (s.withInputs vs).romData = s.romData := rfl
@[simp] theorem withInputs_stim (s : State) (vs : List InWord) : (s.withInputs vs).stim = vs.map Stim.input := rfl
@[simp] theorem withInputs_cycle (s : State) (vs : List InWord) : (s.withInputs vs).cycle = s.cycle := rfl

/-! ### `State.reset` -/

@[simp] theorem reset_cfg : State.reset.cfg = Params.tc := rfl
@[simp] theorem reset_lineQ : State.reset.lineQ = .released := rfl
@[simp] theorem reset_edgeEn : State.reset.edgeEn = true := rfl
@[simp] theorem reset_edgePend : State.reset.edgePend = false := rfl
@[simp] theorem reset_dbCnt : State.reset.dbCnt = 0 := rfl
@[simp] theorem reset_sess : State.reset.sess = false := rfl
@[simp] theorem reset_tkCnt : State.reset.tkCnt = 0 := rfl
@[simp] theorem reset_low : State.reset.low = 0 := rfl
@[simp] theorem reset_high : State.reset.high = 0 := rfl
@[simp] theorem reset_bufLen : State.reset.bufLen = 0#3 := rfl
@[simp] theorem reset_bufSym : State.reset.bufSym = 0#4 := rfl
@[simp] theorem reset_snapLen : State.reset.snapLen = 0#3 := rfl
@[simp] theorem reset_snapSym : State.reset.snapSym = 0#4 := rfl
@[simp] theorem reset_ready : State.reset.ready = false := rfl
@[simp] theorem reset_ovr : State.reset.ovr = false := rfl
@[simp] theorem reset_outValid : State.reset.outValid = false := rfl
@[simp] theorem reset_outChar : State.reset.outChar = 0#8 := rfl
@[simp] theorem reset_romData : State.reset.romData = none := rfl
@[simp] theorem reset_stim : State.reset.stim = [] := rfl
@[simp] theorem reset_cycle : State.reset.cycle = 0 := rfl

end Sys2Proof.Machine
end

