-- ==== Sys2Proof/Laws/Ops.lean ====
section
/-! SUPPORT. What the shared operations can do, each said once: performing outcomes in order, the operand
arithmetic, Append, and the classifier checks of a released tick. -/

namespace Sys2Proof.Machine

open Sys2Proof

/-! ### Performing outcomes in order -/

@[simp] theorem andThen_next (s : State) (f : State → Result) : andThen (.next s) f = f s := rfl

@[simp] theorem andThen_refused (r : Refusal) (f : State → Result) :
    andThen (.refused r) f = .refused r := rfl

/-- A sequence answers a next state only through the first outcome's next state. -/
theorem andThen_eq_next {o : Result} {f : State → Result} {t : State} :
    andThen o f = .next t ↔ ∃ n, o = .next n ∧ f n = .next t := by
  cases o with
  | next s => simp
  | fault r => exact nomatch r
  | refused r => simp

/-- Performing in order is associative. -/
theorem andThen_assoc (o : Result) (f g : State → Result) :
    andThen (andThen o f) g = andThen o fun n => andThen (f n) g := by
  cases o <;> rfl

/-- Performing a list after another performs both in order. -/
theorem runOps_append (is js : List Instr) (n : State) :
    runOps (is ++ js) n = andThen (runOps is n) (runOps js) := by
  induction is generalizing n with
  | nil => rfl
  | cons i is ih =>
    show andThen (exec i n) (runOps (is ++ js)) = andThen (andThen (exec i n) (runOps is)) (runOps js)
    rw [andThen_assoc]
    congr 1
    exact funext ih

/-- A stop of the block is never a fault (R113). -/
theorem result_cases (o : Result) : (∃ t, o = .next t) ∨ ∃ r, o = .refused r := by
  cases o with
  | next s => exact .inl ⟨s, rfl⟩
  | fault r => exact nomatch r
  | refused r => exact .inr ⟨r, rfl⟩

/-! ### Operand arithmetic -/

/-- The greatest counter value is below the counter's modulus. -/
theorem cntMax_lt (p : Params) : p.cntMax < 2 ^ p.cntW :=
  Nat.sub_lt (Nat.two_pow_pos _) Nat.one_pos

theorem lowNext_le (s : State) : s.lowNext ≤ s.cfg.cntMax := Nat.min_le_right _ _

/-- A pressed tick counts one more, or leaves the counter at its greatest value (R85). -/
theorem lowNext_eq (s : State) : s.lowNext = min (s.low + 1) s.cfg.cntMax := rfl

/-- Where the sum fits the register, a released tick counts one more (R86). -/
theorem highNext_of_lt {s : State} (h : s.high + 1 < 2 ^ s.cfg.cntW) : s.highNext = s.high + 1 :=
  if_pos h

/-- `high` stays within its width whatever the free value is. -/
theorem highNext_le (s : State) : s.highNext ≤ s.cfg.cntMax := by
  have hpos : 0 < 2 ^ s.cfg.cntW := Nat.two_pow_pos _
  have : s.highNext < 2 ^ s.cfg.cntW := by
    unfold State.highNext
    split
    · assumption
    · exact Nat.mod_lt _ hpos
  unfold Params.cntMax
  omega

/-- Below the pause threshold of a legal build the sum always fits (R86). -/
theorem highNext_of_legal {s : State} (hl : s.cfg.Legal) (h : s.high < s.cfg.pauseT) :
    s.highNext = s.high + 1 := by
  have := cntMax_lt s.cfg
  obtain ⟨-, -, -, -, -, -, hp, -⟩ := hl
  exact highNext_of_lt (by omega)

theorem tkNext_le {s : State} (h : s.tkCnt ≤ s.cfg.tickCycles) : s.tkNext ≤ s.cfg.tickCycles := by
  unfold State.tkNext countdown
  split <;> omega

/-- A symbol inserted at the length of a canonical code word keeps it canonical (R53, R98). -/
theorem insertSym_canonical (len : CodeLen) (syms : CodeSym) (b : Sym) (hlen : len.toNat < 4)
    (h : Canonical len syms) : Canonical (len + 1#3) (insertSym syms len b) := by
  revert hlen h
  cases b <;> revert len syms <;> decide

/-- Appending to a buffer that is not full adds one to its length. -/
theorem len_succ (len : CodeLen) (h : len.toNat < 4) : (len + 1#3).toNat = len.toNat + 1 := by
  revert len
  decide

/-! ### Append and CONFIRM -/

/-- Append to a buffer that is not full: one more symbol (R98). -/
theorem lenNext_of_lt {s : State} (b : Sym) (h : s.bufLen.toNat < 4) : s.lenNext b = s.bufLen + 1#3 :=
  if_pos h

/-- Append to a buffer that is not full: the symbol is inserted at the length (R98). -/
theorem symNext_of_lt {s : State} (b : Sym) (h : s.bufLen.toNat < 4) :
    s.symNext b = insertSym s.bufSym s.bufLen b := if_pos h

/-- An append never leaves `buf_len` past 4, whatever the free value is (R26). -/
theorem lenNext_le (s : State) (b : Sym) : (s.lenNext b).toNat ≤ 4 := by
  unfold State.lenNext
  split
  · rename_i h
    have h4 : s.bufLen.toNat < 4 := h
    rw [len_succ _ h4]
    omega
  · rw [BitVec.toNat_ofNat]
    have : Config.freeLen s.cfg s.bufLen s.bufSym b % (capacity + 1) < 5 := Nat.mod_lt _ (by decide)
    omega

/-- A buffer that is not full becomes full by an append exactly when it held three symbols. -/
theorem lenNext_eq_four {s : State} (b : Sym) (h : s.bufLen.toNat < 4) :
    s.lenNext b = 4#3 ↔ s.bufLen = 3#3 := by
  rw [lenNext_of_lt b h]
  revert h
  generalize s.bufLen = len
  revert len
  decide

/-- The state in which CONFIRM leaves a buffer that it does not fill, or hands to END_FULL (R91). -/
def confirmed (s : State) : State := closePress (append s.classify s)

/-- CONFIRM's two cases: a symbol added, or the code ended at four symbols. -/
theorem execConfirm_cases (s : State) :
    execConfirm s =
      if s.lenNext s.classify = 4#3 then .next (endCode (endTiming (confirmed s))) else .next (confirmed s) := by
  have h : (s.lenNext s.classify).toNat = capacity ↔ s.lenNext s.classify = 4#3 :=
    ⟨fun h => BitVec.eq_of_toNat_eq h, fun h => by rw [h]; rfl⟩
  unfold execConfirm finishConfirm
  show (if (s.lenNext s.classify).toNat = capacity then _ else _) = _
  by_cases h4 : s.lenNext s.classify = 4#3
  · rw [if_pos h4, if_pos (h.2 h4)]
    rfl
  · rw [if_neg h4, if_neg fun hn => h4 (h.1 hn)]
    rfl

/-- What the classifier checks of one released tick do, for thresholds that differ (R95). -/
theorem classifierChecks_cases {s : State} (hne : s.cfg.confirmT ≠ s.cfg.pauseT) :
    classifierChecks s =
      if s.high = s.cfg.confirmT then
        (if s.lenNext s.classify = 4#3 then .next (endCode (endTiming (confirmed s))) else .next (confirmed s))
      else if s.high = s.cfg.pauseT then .next (endCode (endTiming s))
      else .next s := by
  unfold classifierChecks
  by_cases hc : s.high = s.cfg.confirmT
  · rw [if_pos hc, if_pos hc, execConfirm_cases]
    by_cases h4 : s.lenNext s.classify = 4#3
    · rw [if_pos h4, andThen_next]
      exact if_pos rfl
    · have hp : ¬ (confirmed s).high = (confirmed s).cfg.pauseT := by
        show ¬ s.high = s.cfg.pauseT
        omega
      rw [if_neg h4, andThen_next]
      split
      · rfl
      · exact if_neg hp
  · rw [if_neg hc, if_neg hc]
    rfl

/-! ### What no operation touches -/

/-- No operation changes the parameters, the stimuli to come or the cycle count. -/
theorem exec_environment {i : Instr} {s t : State} (h : exec i s = .next t) :
    t.cfg = s.cfg ∧ t.stim = s.stim ∧ t.cycle = s.cycle := by
  have hc : ∀ {m n : State}, execConfirm m = .next n →
      n.cfg = m.cfg ∧ n.stim = m.stim ∧ n.cycle = m.cycle := by
    intro m n hm
    rw [execConfirm_cases] at hm
    split at hm <;> cases hm <;> exact ⟨rfl, rfl, rfl⟩
  have hp : ∀ {m n : State}, pauseCheck m = .next n →
      n.cfg = m.cfg ∧ n.stim = m.stim ∧ n.cycle = m.cycle := by
    intro m n hm
    unfold pauseCheck at hm
    split at hm <;> cases hm <;> exact ⟨rfl, rfl, rfl⟩
  have hk : ∀ {m n : State}, classifierChecks m = .next n →
      n.cfg = m.cfg ∧ n.stim = m.stim ∧ n.cycle = m.cycle := by
    intro m n hm
    unfold classifierChecks at hm
    split at hm
    · obtain ⟨k, hk1, hk2⟩ := andThen_eq_next.1 hm
      have h1 := hc hk1
      split at hk2
      · cases hk2; exact h1
      · have h2 := hp hk2
        exact ⟨h2.1.trans h1.1, h2.2.1.trans h1.2.1, h2.2.2.trans h1.2.2⟩
    · exact hp hm
  cases i with
  | confirm => exact hc h
  | tickRelease => exact hk (m := { s with high := s.highNext }) h
  | tickAdv => simp only [exec, execTickAdv] at h; split at h <;> cases h <;> exact ⟨rfl, rfl, rfl⟩
  | oneshotAdv => simp only [exec, execOneshotAdv] at h; split at h <;> cases h <;> exact ⟨rfl, rfl, rfl⟩
  | edgeLatch lvl => simp only [exec, execEdgeLatch] at h; split at h <;> cases h <;> exact ⟨rfl, rfl, rfl⟩
  | expirePress =>
    simp only [exec, execExpirePress] at h
    cases h
    cases s.sess <;> exact ⟨rfl, rfl, rfl⟩
  | _ => cases h; exact ⟨rfl, rfl, rfl⟩

end Sys2Proof.Machine
end

