-- ==== Sys2Proof/Laws/Cycle.lean ====
section
/-! SUPPORT. What one clock cycle does, said once: which operations it performs, and its effect in three parts
(before the tick, the tick, after the tick), from which every property of a cycle follows. -/

namespace Sys2Proof.Machine

open Sys2Proof Sys2Proof.Safety

/-! ### The formats -/

/-- The input bits of an event word are those it was packed from (R52). -/
theorem evtInput_evtWord (rst fall exp tick ack : Bool) (lvl : Level) :
    evtInput (evtWord rst fall exp tick ack lvl) = inWord rst ack lvl := by
  have h : ∀ rst fall exp tick ack lvl : Bool,
      evtInput (evtWord rst fall exp tick ack (Level.ofBit lvl)) = inWord rst ack (Level.ofBit lvl) := by
    decide +kernel
  cases lvl
  · exact h rst fall exp tick ack false
  · exact h rst fall exp tick ack true

/-- An input vector is its three ports (R50). -/
theorem inWord_ports (v : InWord) : inWord (inRst v) (inAck v) (inLevel v) = v := by
  revert v
  decide

/-- The event word a state derives names the input vector it was derived from. -/
theorem evtInput_evt (s : State) (v : InWord) : evtInput (s.evt v) = v := by
  rw [State.evt, evtInput_evtWord, inWord_ports]

/-- The tick operation for a sampled level (R84). -/
def tickOp : Level → Instr
  | .pressed => .tickPress
  | .released => .tickRelease

/-- The expiry operation for a sampled level (R76). -/
def expOp : Level → Instr
  | .pressed => .expirePress
  | .released => .expireBounce

/-- The operations `l` when `b` holds. -/
def opsIf (b : Bool) (l : List Instr) : List Instr := if b then l else []

/-- The tick rows for a sampled level: the counting operation and those performed inside it (R56). -/
def tickRows : Level → List Instr
  | .pressed => [.tickPress]
  | .released => [.tickRelease, .confirm, .endFull, .endPause]

/-- The rows that accept an event word without `RST` (R56). -/
theorem rowsOf_evtWord (fall exp tick ack : Bool) (lvl : Level) :
    rowsOf (evtWord false fall exp tick ack lvl) =
      List.flatten [opsIf ack [.consume, .ackIdle], [.tickAdv, .oneshotAdv], opsIf fall [.edgeLatch lvl],
        [.lineSample lvl], opsIf tick (tickRows lvl), opsIf exp [expOp lvl], [.fire], opsIf ack [.romRead]] := by
  cases lvl
  · revert fall exp tick ack
    decide +kernel
  · revert fall exp tick ack
    decide +kernel

/-- Only RESET accepts an event word with `RST` set (R56). -/
theorem rowsOf_reset (fall exp tick ack : Bool) (lvl : Level) :
    rowsOf (evtWord true fall exp tick ack lvl) = [.reset] := by
  cases lvl
  · revert fall exp tick ack
    decide +kernel
  · revert fall exp tick ack
    decide +kernel

/-- The operations of phases 0 to 2 (R62). -/
def earlyOps (s : State) (v : InWord) : List Instr :=
  opsIf (inAck v) [if s.ready then .consume else .ackIdle] ++ opsIf s.sess [.tickAdv] ++
  opsIf (s.dbCnt != 0) [.oneshotAdv] ++ opsIf (s.fall (inLevel v)) [.edgeLatch (inLevel v)] ++
  [.lineSample (inLevel v)]

theorem filter_opsIf (p : Instr → Bool) (b : Bool) (l : List Instr) :
    (opsIf b l).filter p = opsIf b (l.filter p) := by
  cases b <;> rfl

/-- The operations of a cycle without reset, in the phase order of R62. -/
theorem cycleOps_eq {s : State} {v : InWord} (h : inRst v = false) :
    cycleOps s v =
      earlyOps s v ++ (opsIf s.tick [tickOp (inLevel v)] ++ opsIf s.exp [expOp (inLevel v)]) := by
  have h0 : [Instr.consume, Instr.ackIdle].filter (selects s) = [if s.ready then .consume else .ackIdle] := by
    cases hr : s.ready <;> simp [selects, hr]
  have h1 : [Instr.tickAdv, Instr.oneshotAdv].filter (selects s) =
      opsIf s.sess [.tickAdv] ++ opsIf (s.dbCnt != 0) [.oneshotAdv] := by
    cases hs : s.sess <;> by_cases hd : s.dbCnt = 0 <;> simp [selects, hs, hd, opsIf]
  have h3 : (tickRows (inLevel v)).filter (selects s) = [tickOp (inLevel v)] := by
    cases inLevel v <;> rfl
  have h4 : [expOp (inLevel v)].filter (selects s) = [expOp (inLevel v)] := by
    cases inLevel v <;> rfl
  have h5 : ∀ i : Instr, selects s i = false → [i].filter (selects s) = [] := by
    intro i hi
    simp [hi]
  have h6 : ∀ i : Instr, selects s i = true → [i].filter (selects s) = [i] := by
    intro i hi
    simp [hi]
  unfold cycleOps State.evt earlyOps
  rw [h, rowsOf_evtWord]
  simp only [List.flatten_cons, List.flatten_nil, List.filter_append, filter_opsIf, h0, h1, h3, h4,
    h5 .fire rfl, h5 .romRead rfl, h6 (.edgeLatch (inLevel v)) rfl, h6 (.lineSample (inLevel v)) rfl,
    List.append_assoc]
  cases inAck v <;> simp [opsIf]

/-- The operations of a reset cycle (R63). -/
theorem cycleOps_reset {s : State} {v : InWord} (h : inRst v = true) : cycleOps s v = [.reset] := by
  unfold cycleOps State.evt
  rw [h, rowsOf_reset]
  rfl

/-! ### The cycle in three parts -/

/-- The working copy after phases 0 to 2: consume, timers, edge detector (R62). -/
def early (v : InWord) (s : State) : State :=
  { s with
    outValid := inAck v && s.ready
    outChar := if inAck v && s.ready then s.snapByte else s.outChar
    ready := s.ready && !inAck v
    romData := none
    tkCnt := if s.sess then s.tkNext else s.tkCnt
    dbCnt := s.dbCnt - 1
    edgePend := s.edgePend || s.fall (inLevel v)
    lineQ := inLevel v }

/-- Phase 4 on the working copy: the expiry's effect (R76 to R78). -/
def expired (exp : Bool) (lvl : Level) (n : State) : State :=
  if exp then
    (match lvl with
     | .pressed => { n with sess := true, tkCnt := n.cfg.tickCycles, low := 0, high := 0 }
     | .released => { n with edgePend := false, edgeEn := true })
  else n

/-- Phase 5 on the working copy: a pending edge fires when notification is enabled (R74). -/
def fired (n : State) : State :=
  if n.edgeEn && n.edgePend then
    { n with edgeEn := false, edgePend := false, dbCnt := n.cfg.debounceCycles }
  else n

theorem execExpirePress_eq (n : State) :
    execExpirePress n =
      .next { n with sess := true, tkCnt := n.cfg.tickCycles, low := 0, high := 0 } := by
  unfold execExpirePress
  cases n.sess <;> rfl

theorem runOps_expOp (exp : Bool) (lvl : Level) (n : State) :
    runOps (opsIf exp [expOp lvl]) n = .next (expired exp lvl n) := by
  cases exp
  · rfl
  · cases lvl
    · show andThen (execExpirePress n) .next = _
      rw [execExpirePress_eq]
      rfl
    · rfl

theorem firePhase_eq (n : State) : firePhase n = .next (fired n) := by
  unfold firePhase fired
  split <;> rfl

theorem runOps_tickOp (tick : Bool) (lvl : Level) (n : State) :
    runOps (opsIf tick [tickOp lvl]) n = if tick then tickHandler lvl n else .next n := by
  cases tick
  · rfl
  · cases lvl
    · rfl
    · show andThen (execTickRelease n) .next = execTickRelease n
      obtain ⟨t, h⟩ | ⟨r, h⟩ := result_cases (execTickRelease n) <;> rw [h] <;> rfl

/-- Phases 0 to 2 never stop, and this is their effect. -/
theorem runOps_early (s : State) (v : InWord) :
    runOps (earlyOps s v) (beginCycle s) = .next (early v s) := by
  have h0 : ∀ (a r : Bool) (m : State), m.ready = r → m.outValid = false → m.romData = none →
      runOps (opsIf a [if r then .consume else .ackIdle]) m =
      .next { m with
        outValid := a && r
        outChar := if a && r then m.snapByte else m.outChar
        ready := r && !a } := by
    rintro a r ⟨cfg, lineQ, edgeEn, edgePend, dbCnt, sess, tkCnt, low, high, bufLen, bufSym, snapLen, snapSym,
      ready, ovr, outValid, outChar, romData, stim, cycle⟩ h1 h2 h3
    cases h1
    cases h2
    cases h3
    cases a <;> cases ready <;> rfl
  have h1 : ∀ (b : Bool) (m : State), m.sess = b → runOps (opsIf b [.tickAdv]) m =
      .next { m with tkCnt := if b then m.tkNext else m.tkCnt } := by
    intro b m hb
    cases b
    · rfl
    · show andThen (execTickAdv m) .next = _
      rw [execTickAdv, if_pos hb]
      rfl
  have h2 : ∀ (d : Nat) (m : State), m.dbCnt = d → runOps (opsIf (d != 0) [.oneshotAdv]) m =
      .next { m with dbCnt := d - 1 } := by
    rintro d ⟨cfg, lineQ, edgeEn, edgePend, dbCnt, sess, tkCnt, low, high, bufLen, bufSym, snapLen, snapSym,
      ready, ovr, outValid, outChar, romData, stim, cycle⟩ rfl
    cases dbCnt <;> rfl
  have h3 : ∀ (b : Bool) (m : State), m.fall (inLevel v) = b →
      runOps (opsIf b [.edgeLatch (inLevel v)]) m = .next { m with edgePend := m.edgePend || b } := by
    intro b m hb
    cases b
    · rw [Bool.or_false]
      rfl
    · show andThen (execEdgeLatch (inLevel v) m) .next = _
      rw [execEdgeLatch, if_pos hb, Bool.or_true]
      rfl
  unfold earlyOps
  rw [runOps_append, runOps_append, runOps_append, runOps_append, h0 _ s.ready, andThen_next, h1 s.sess,
    andThen_next, h2 s.dbCnt, andThen_next, h3 (s.fall (inLevel v)), andThen_next] <;> rfl

/-- Phase 3 of a cycle: the tick, where there is one, on the working copy of phases 0 to 2 (R84). -/
def tickPart (v : InWord) (s : State) : Result :=
  if s.tick then tickHandler (inLevel v) (early v s) else .next (early v s)

/-- A cycle without reset: the early phases, then the tick, then the expiry and the fire (R62). -/
theorem cycle_eq {s : State} {v : InWord} (h : inRst v = false) :
    cycle v s = andThen (tickPart v s) fun n => .next (fired (expired s.exp (inLevel v) n)) := by
  unfold cycle
  rw [if_neg (by simp [h]), cycleOps_eq h, runOps_append, runOps_early, andThen_next, runOps_append,
    runOps_tickOp, andThen_assoc]
  congr 1
  funext n
  rw [runOps_expOp, andThen_next, firePhase_eq]

/-- A reset cycle replaces the step by the reset state (R63, R127). -/
theorem cycle_reset {s : State} {v : InWord} (h : inRst v = true) :
    cycle v s = .next (resetRegisters s) := by
  unfold cycle
  rw [if_pos h, cycleOps_reset h]
  rfl

/-- The working copy after a released tick has counted (R86). -/
def released (v : InWord) (s : State) : State := { early v s with high := s.highNext }

/-- The working copy after a pressed tick has counted (R85). -/
def pressed (v : InWord) (s : State) : State := { early v s with low := s.lowNext }

/-- What the tick does in a cycle of a legal build: nothing, a pressed tick, a released tick that reaches no
threshold, a release-confirm that ends the code or does not, or a pause. -/
theorem tickPart_cases {s : State} (v : InWord) (hl : s.cfg.Legal) :
    tickPart v s =
      if s.tick = false then .next (early v s)
      else if inLevel v = .pressed then .next (pressed v s)
      else if s.highNext = s.cfg.confirmT then
        (if s.lenNext s.classify = 4#3 then .next (endCode (endTiming (confirmed (released v s))))
         else .next (confirmed (released v s)))
      else if s.highNext = s.cfg.pauseT then .next (endCode (endTiming (released v s)))
      else .next (released v s) := by
  unfold tickPart
  cases ht : s.tick
  · rfl
  · cases hv : inLevel v
    · rfl
    · obtain ⟨-, -, -, -, hcp, -⟩ := hl
      show classifierChecks (released v s) = _
      rw [classifierChecks_cases (by show s.cfg.confirmT ≠ s.cfg.pauseT; omega)]
      rfl

/-- The six ways a tick part answers a next state. -/
theorem tickPart_next {s n : State} {v : InWord} (hl : s.cfg.Legal) (h : tickPart v s = .next n) :
    (s.tick = false ∧ n = early v s) ∨
    (s.tick = true ∧ inLevel v = .pressed ∧ n = pressed v s) ∨
    (ConfirmTick s v ∧ s.lenNext s.classify ≠ 4#3 ∧ n = confirmed (released v s)) ∨
    (ConfirmTick s v ∧ s.lenNext s.classify = 4#3 ∧ n = endCode (endTiming (confirmed (released v s)))) ∨
    (PauseTick s v ∧ n = endCode (endTiming (released v s))) ∨
    (s.tick = true ∧ inLevel v = .released ∧ s.highNext ≠ s.cfg.confirmT ∧ s.highNext ≠ s.cfg.pauseT ∧
      n = released v s) := by
  rw [tickPart_cases v hl] at h
  by_cases ht : s.tick = false
  · rw [if_pos ht] at h
    cases h
    exact .inl ⟨ht, rfl⟩
  · rw [if_neg ht] at h
    have ht' : s.tick = true := by simpa using ht
    by_cases hv : inLevel v = .pressed
    · rw [if_pos hv] at h
      cases h
      exact .inr (.inl ⟨ht', hv, rfl⟩)
    · rw [if_neg hv] at h
      have hv' : inLevel v = .released := by
        cases hw : inLevel v
        · exact absurd hw hv
        · rfl
      by_cases hc : s.highNext = s.cfg.confirmT
      · rw [if_pos hc] at h
        split at h
        · cases h
          exact .inr (.inr (.inr (.inl ⟨⟨ht', hv', hc⟩, by assumption, rfl⟩)))
        · cases h
          exact .inr (.inr (.inl ⟨⟨ht', hv', hc⟩, by assumption, rfl⟩))
      · rw [if_neg hc] at h
        split at h
        · cases h
          exact .inr (.inr (.inr (.inr (.inl ⟨⟨ht', hv', by assumption⟩, rfl⟩))))
        · cases h
          exact .inr (.inr (.inr (.inr (.inr ⟨ht', hv', hc, by assumption, rfl⟩))))

/-- A clock cycle's next state: the reset state, or the tick part followed by expiry and fire. -/
theorem clock_next {s t : State} {v : InWord} (h : clock v s = .next t) :
    (inRst v = true ∧ t = countCycle (resetRegisters s)) ∨
    (inRst v = false ∧ ∃ n, tickPart v s = .next n ∧
      t = countCycle (fired (expired s.exp (inLevel v) n))) := by
  unfold clock at h
  cases hr : inRst v
  · rw [cycle_eq hr, andThen_assoc] at h
    obtain ⟨n, h1, h2⟩ := andThen_eq_next.1 h
    cases h2
    exact .inr ⟨rfl, n, h1, rfl⟩
  · rw [cycle_reset hr] at h
    cases h
    exact .inl ⟨rfl, rfl⟩

/-! ### The step -/

/-- A step on a queued input vector is that clock cycle (R62). -/
theorem step_input {s : State} {v : InWord} {rest : List Stim} (hl : s.cfg.Legal)
    (h : s.stim = .input v :: rest) : step s = clock v { s with stim := rest } := by
  unfold step respond
  rw [if_pos hl, h]

/-- A step with nothing queued is a clock cycle with the free draw (R123). -/
theorem step_free {s : State} (hl : s.cfg.Legal) (h : s.stim = []) :
    step s = clock (Config.freeInput s.cycle) s := by
  unfold step respond
  rw [if_pos hl, h]

/-- The cycle's effect does not depend on what is still queued, but for keeping it. -/
theorem evt_stim (s : State) (v : InWord) (q : List Stim) :
    State.evt { s with stim := q } v = s.evt v := rfl

/-- An event word that the state derives is decoded without error. -/
theorem decode_evt (s : State) (v : InWord) : decode (s.evt v) = .ok (rowsOf (s.evt v)) := by
  unfold State.evt State.fall
  cases s.lineQ <;> cases inLevel v <;> cases inRst v <;> cases s.exp <;> cases s.tick <;>
    cases inAck v <;> rfl

/-- A step whose next input vector is `v` is the clock cycle with `v`, or refuses the harness's event word
(R57). -/
theorem step_nextInput {s : State} {v : InWord} (hl : s.cfg.Legal) (h : NextInput s v) :
    step s = clock v { s with stim := remaining s } ∨
    (∃ w rest, s.stim = .event w :: rest ∧ w ≠ s.evt v ∧ ∃ r, step s = .refused r) := by
  rcases h with ⟨rest, h⟩ | ⟨h, rfl⟩ | ⟨w, rest, h, rfl⟩
  · left
    rw [step_input hl h, remaining, h]
    rfl
  · left
    rw [step_free hl h, remaining, h]
    obtain ⟨cfg, lineQ, edgeEn, edgePend, dbCnt, sess, tkCnt, low, high, bufLen, bufSym, snapLen, snapSym,
      ready, ovr, outValid, outChar, romData, stim, cycle⟩ := s
    cases h
    rfl
  · have hs : step s = clockEvent w { s with stim := rest } := by
      unfold step respond
      rw [if_pos hl, h]
    have hr : remaining s = rest := by rw [remaining, h]; rfl
    by_cases hw : w = s.evt (evtInput w)
    · left
      have hd : decode w = .ok (rowsOf w) := by
        have := decode_evt s (evtInput w)
        rwa [← hw] at this
      rw [hs, hr, clockEvent, hd]
      exact if_pos hw.symm
    · right
      refine ⟨w, rest, h, hw, ?_⟩
      rw [hs, clockEvent]
      cases decode w with
      | error e => cases e <;> exact ⟨_, rfl⟩
      | ok l => exact ⟨_, if_neg fun he => hw he.symm⟩

/-- A next state of a step whose next input vector is `v` is a next state of that clock cycle. -/
theorem step_next_of_input {s t : State} {v : InWord} (hl : s.cfg.Legal) (hv : NextInput s v)
    (h : step s = .next t) : clock v { s with stim := remaining s } = .next t := by
  rcases step_nextInput hl hv with he | ⟨_, _, _, _, r, hr⟩
  · rw [← he]; exact h
  · rw [hr] at h; cases h

/-- A step that answers a next state had a legal parameter set (R2). -/
theorem legal_of_step {s t : State} (h : step s = .next t) : s.cfg.Legal := by
  unfold step at h
  by_contra hl
  rw [if_neg hl] at h
  cases h

/-- What a step without reset does, said once for every stimulus that is a clock cycle: one of the six tick
cases on the working copy, then expiry and fire; the stimulus is taken and the cycle counted. -/
theorem step_cases {s t : State} {v : InWord} (hv : NextInput s v) (hr : inRst v = false)
    (h : step s = .next t) :
    s.cfg.Legal ∧ ∃ n, tickPart v { s with stim := remaining s } = .next n ∧
      t = countCycle (fired (expired s.exp (inLevel v) n)) := by
  have hl := legal_of_step h
  rcases clock_next (step_next_of_input hl hv h) with ⟨hr', -⟩ | ⟨-, n, hn, ht⟩
  · rw [hr] at hr'
    cases hr'
  · exact ⟨hl, n, hn, ht⟩

/-- What a step with reset does. -/
theorem step_reset {s t : State} {v : InWord} (hv : NextInput s v) (hr : inRst v = true)
    (h : step s = .next t) : t = countCycle (resetRegisters { s with stim := remaining s }) := by
  rcases clock_next (step_next_of_input (legal_of_step h) hv h) with ⟨-, ht⟩ | ⟨hr', -⟩
  · exact ht
  · rw [hr] at hr'
    cases hr'

end Sys2Proof.Machine
end

