-- ==== Sys2Proof/Laws/Run.lean ====
section
/-! SUPPORT. Runs of clock cycles (R143), one cycle at a time; what a cycle never touches; and that a
cycle cannot stop. -/

namespace Sys2Proof.Machine

open Sys2Proof Sys2Proof.Safety

/-! ### What a cycle never touches -/

/-- Expiry and fire leave the environment fields. -/
theorem late_environment (e : Bool) (lvl : Level) (n : State) :
    (fired (expired e lvl n)).cfg = n.cfg ∧ (fired (expired e lvl n)).stim = n.stim ∧
    (fired (expired e lvl n)).cycle = n.cycle := by
  have he : (expired e lvl n).cfg = n.cfg ∧ (expired e lvl n).stim = n.stim ∧
      (expired e lvl n).cycle = n.cycle := by
    unfold expired
    cases e <;> cases lvl <;> exact ⟨rfl, rfl, rfl⟩
  have hf : ∀ m : State, (fired m).cfg = m.cfg ∧ (fired m).stim = m.stim ∧ (fired m).cycle = m.cycle := by
    intro m
    unfold fired
    split <;> exact ⟨rfl, rfl, rfl⟩
  obtain ⟨h1, h2, h3⟩ := hf (expired e lvl n)
  exact ⟨h1.trans he.1, h2.trans he.2.1, h3.trans he.2.2⟩

/-- A clock cycle leaves the parameters and the stimuli to come, and counts itself. -/
theorem clock_environment {s t : State} {v : InWord} (hl : s.cfg.Legal) (h : clock v s = .next t) :
    t.cfg = s.cfg ∧ t.stim = s.stim ∧ t.cycle = s.cycle + 1 := by
  rcases clock_next h with ⟨-, rfl⟩ | ⟨-, n, hn, rfl⟩
  · exact ⟨rfl, rfl, rfl⟩
  · have hn' : n.cfg = s.cfg ∧ n.stim = s.stim ∧ n.cycle = s.cycle := by
      rcases tickPart_next hl hn with ⟨-, rfl⟩ | ⟨-, -, rfl⟩ | ⟨-, -, rfl⟩ | ⟨-, -, rfl⟩ | ⟨-, rfl⟩ |
        ⟨-, -, -, -, rfl⟩ <;> exact ⟨rfl, rfl, rfl⟩
    obtain ⟨h1, h2, h3⟩ := late_environment s.exp (inLevel v) n
    refine ⟨h1.trans hn'.1, h2.trans hn'.2.1, ?_⟩
    show (fired (expired s.exp (inLevel v) n)).cycle + 1 = s.cycle + 1
    rw [h3, hn'.2.2]

/-! ### A cycle cannot stop -/

/-- With a legal build, a tick always answers a next state (R67). -/
theorem tickPart_total {s : State} (v : InWord) (hl : s.cfg.Legal) : ∃ n, tickPart v s = .next n := by
  rw [tickPart_cases v hl]
  by_cases ht : s.tick = false
  · exact ⟨_, if_pos ht⟩
  · rw [if_neg ht]
    by_cases hv : inLevel v = .pressed
    · exact ⟨_, if_pos hv⟩
    · rw [if_neg hv]
      split <;> split <;> exact ⟨_, rfl⟩

/-- With a legal build, a clock cycle always answers a next state (R67). -/
theorem clock_total {s : State} (v : InWord) (hl : s.cfg.Legal) : ∃ t, clock v s = .next t := by
  unfold clock
  cases hr : inRst v
  · obtain ⟨n, hn⟩ := tickPart_total v hl
    rw [cycle_eq hr, hn]
    exact ⟨_, rfl⟩
  · rw [cycle_reset hr]
    exact ⟨_, rfl⟩

/-! ### Runs -/

/-- A run whose first step answers a next state goes on from there. -/
theorem run_succ (M : Host.Core) {k : Nat} {s t : M.State} (h : M.step s = .next t) :
    M.run (k + 1) s = M.run k t := by
  simp [Host.Core.run, h]

@[simp] theorem feed_nil (s : State) : feed [] s = .next (s.withInputs []) := rfl

/-- The stimuli a run finds queued are replaced by its own. -/
theorem feed_withInputs (vs us : List InWord) (s : State) : feed vs (s.withInputs us) = feed vs s := rfl

/-- A state whose queue is already these inputs. -/
theorem withInputs_eq {s : State} {vs : List InWord} (h : s.stim = vs.map .input) : s.withInputs vs = s := by
  unfold State.withInputs
  rw [← h]

/-- A run's first cycle, then the run of the others (R143). -/
theorem feed_cons {s t : State} {v : InWord} {vs : List InWord} (hl : s.cfg.Legal)
    (h : clock v (s.withInputs vs) = .next t) : feed (v :: vs) s = feed vs t := by
  have hs : step (s.withInputs (v :: vs)) = .next t :=
    (step_input (s := s.withInputs (v :: vs)) hl rfl).trans h
  have ht : t.withInputs vs = t := withInputs_eq (clock_environment (s := s.withInputs vs) hl h).2.1
  have hs' : Sys2Proof.core.step (s.withInputs (v :: vs)) = .next t := hs
  exact (run_succ Sys2Proof.core hs').trans (by rw [feed, ht])

/-- The induction over a run, once: what every cycle with an allowed input keeps, counting cycles, holds at the
end of a run of allowed inputs, and the run does not stop. -/
theorem feed_induction {Q : InWord → Prop} {P : Nat → State → Prop}
    (hq : ∀ k s us, P k s → P k (s.withInputs us))
    (hs : ∀ k v s t, s.cfg.Legal → Q v → P k s → clock v s = .next t → P (k + 1) t) :
    ∀ (vs : List InWord) (k : Nat) (s : State), s.cfg.Legal → (∀ v ∈ vs, Q v) → P k s →
      ∃ t, feed vs s = .next t ∧ P (k + vs.length) t
  | [], k, s, _, _, hp => ⟨s.withInputs [], rfl, hq k s [] hp⟩
  | v :: vs, k, s, hl, hv, hp => by
    obtain ⟨n, hn⟩ := clock_total (s := s.withInputs vs) v hl
    have hpn := hs k v (s.withInputs vs) n hl (hv v (List.mem_cons_self ..)) (hq k s vs hp) hn
    have hln : n.cfg.Legal := by
      rw [(clock_environment (s := s.withInputs vs) hl hn).1]
      exact hl
    obtain ⟨t, ht, hpt⟩ := feed_induction hq hs vs (k + 1) n hln
      (fun u hu => hv u (List.mem_cons_of_mem _ hu)) hpn
    refine ⟨t, (feed_cons hl hn).trans ht, ?_⟩
    rw [List.length_cons, Nat.add_comm vs.length 1, ← Nat.add_assoc]
    exact hpt

end Sys2Proof.Machine
end

