-- ==== Sys2Proof/Laws/Parts.lean ====
section
/-! SUPPORT. A clock cycle field by field: what expiry and fire (phases 4 and 5) leave of the working copy, the
six cases of the tick stated over the state at the start of the cycle, and which operations a cycle performs. -/

namespace Sys2Proof.Machine

open Sys2Proof Sys2Proof.Safety

/-- A line level is one of the two (R14). -/
theorem level_cases (l : Level) : l = .pressed ∨ l = .released := by
  cases l
  · exact .inl rfl
  · exact .inr rfl

/-- What follows the tick in a cycle: expiry, fire, and the cycle's count. -/
def late (exp : Bool) (lvl : Level) (n : State) : State := countCycle (fired (expired exp lvl n))

/-! ### What expiry and fire leave -/

/-- The code, its snapshot, the output registers and the line are not touched after the tick. -/
theorem late_code (e : Bool) (l : Level) (n : State) :
    (late e l n).bufLen = n.bufLen ∧ (late e l n).bufSym = n.bufSym ∧
    (late e l n).snapLen = n.snapLen ∧ (late e l n).snapSym = n.snapSym ∧
    (late e l n).ready = n.ready ∧ (late e l n).ovr = n.ovr ∧
    (late e l n).outValid = n.outValid ∧ (late e l n).outChar = n.outChar ∧
    (late e l n).lineQ = n.lineQ ∧ (late e l n).romData = n.romData := by
  obtain ⟨cfg, lineQ, edgeEn, edgePend, dbCnt, sess, tkCnt, low, high, bufLen, bufSym, snapLen, snapSym,
    ready, ovr, outValid, outChar, romData, stim, cycle⟩ := n
  cases e <;> cases l <;> cases edgeEn <;> cases edgePend <;> simp [late, countCycle, fired, expired]

/-- The session's registers change after the tick only at a press expiry (R77). -/
theorem late_session (e : Bool) (l : Level) (n : State) :
    (late e l n).sess = (n.sess || (e && l == .pressed)) ∧
    (late e l n).tkCnt = (if e && l == .pressed then n.cfg.tickCycles else n.tkCnt) ∧
    (late e l n).low = (if e && l == .pressed then 0 else n.low) ∧
    (late e l n).high = (if e && l == .pressed then 0 else n.high) := by
  obtain ⟨cfg, lineQ, edgeEn, edgePend, dbCnt, sess, tkCnt, low, high, bufLen, bufSym, snapLen, snapSym,
    ready, ovr, outValid, outChar, romData, stim, cycle⟩ := n
  cases e <;> cases l <;> cases edgeEn <;> cases edgePend <;> simp [late, countCycle, fired, expired]

/-- The notification registers after the tick: a bounce expiry enables and clears, then an enabled pending edge
fires (R74, R78). -/
theorem late_edge (e : Bool) (l : Level) (n : State) :
    (late e l n).edgeEn =
      ((n.edgeEn || (e && l == .released)) && !(n.edgePend && !(e && l == .released))) ∧
    (late e l n).edgePend =
      ((n.edgePend && !(e && l == .released)) && !(n.edgeEn || (e && l == .released))) ∧
    (late e l n).dbCnt =
      (if (n.edgeEn || (e && l == .released)) && (n.edgePend && !(e && l == .released)) then
        n.cfg.debounceCycles else n.dbCnt) := by
  obtain ⟨cfg, lineQ, edgeEn, edgePend, dbCnt, sess, tkCnt, low, high, bufLen, bufSym, snapLen, snapSym,
    ready, ovr, outValid, outChar, romData, stim, cycle⟩ := n
  cases e <;> cases l <;> cases edgeEn <;> cases edgePend <;> simp [late, countCycle, fired, expired]

/-- Nothing after the tick touches the parameters or the stimuli. -/
theorem late_cfg (e : Bool) (l : Level) (n : State) :
    (late e l n).cfg = n.cfg ∧ (late e l n).stim = n.stim ∧ (late e l n).cycle = n.cycle + 1 := by
  obtain ⟨h1, h2, h3⟩ := late_environment e l n
  exact ⟨h1, h2, congrArg (· + 1) h3⟩

/-! ### The tick's six cases over the state at the start of the cycle -/

/-- The working copy of a cycle without reset before expiry and fire, and what is known in each case. -/
abbrev TickCase (s : State) (v : InWord) (n : State) : Prop :=
  (s.tick = false ∧ ¬ ConfirmTick s v ∧ ¬ PauseTick s v ∧ n = early v s) ∨
  (s.tick = true ∧ inLevel v = .pressed ∧ ¬ ConfirmTick s v ∧ ¬ PauseTick s v ∧ n = pressed v s) ∨
  (ConfirmTick s v ∧ ¬ PauseTick s v ∧ s.lenNext s.classify ≠ 4#3 ∧ n = confirmed (released v s)) ∨
  (ConfirmTick s v ∧ ¬ PauseTick s v ∧ s.lenNext s.classify = 4#3 ∧
    n = endCode (endTiming (confirmed (released v s)))) ∨
  (PauseTick s v ∧ ¬ ConfirmTick s v ∧ n = endCode (endTiming (released v s))) ∨
  (s.tick = true ∧ inLevel v = .released ∧ ¬ ConfirmTick s v ∧ ¬ PauseTick s v ∧ n = released v s)

/-- The tick of a legal build is one of the six cases, and no tick is both a confirm and a pause (R89, R95). -/
theorem tickPart_case {s n : State} {v : InWord} (hl : s.cfg.Legal) (h : tickPart v s = .next n) :
    TickCase s v n := by
  have hcp : s.cfg.confirmT < s.cfg.pauseT := hl.2.2.2.2.1
  have hnb : ¬ (ConfirmTick s v ∧ PauseTick s v) := fun ⟨hc, hp⟩ => by
    have h1 := hc.2.2
    have h2 := hp.2.2
    omega
  have hnt : s.tick = false → ¬ ConfirmTick s v ∧ ¬ PauseTick s v := fun ht =>
    ⟨fun hc => Bool.noConfusion (ht.symm.trans hc.1), fun hp => Bool.noConfusion (ht.symm.trans hp.1)⟩
  have hnp : inLevel v = .pressed → ¬ ConfirmTick s v ∧ ¬ PauseTick s v := fun hp =>
    ⟨fun hc => absurd (hp.symm.trans hc.2.1) (by decide), fun hc => absurd (hp.symm.trans hc.2.1) (by decide)⟩
  rcases tickPart_next hl h with ⟨ht, hn⟩ | ⟨ht, hp, hn⟩ | ⟨hc, hb, hn⟩ | ⟨hc, hb, hn⟩ | ⟨hp, hn⟩ |
    ⟨ht, hr, hc, hp, hn⟩
  · exact .inl ⟨ht, (hnt ht).1, (hnt ht).2, hn⟩
  · exact .inr (.inl ⟨ht, hp, (hnp hp).1, (hnp hp).2, hn⟩)
  · exact .inr (.inr (.inl ⟨hc, fun hp => hnb ⟨hc, hp⟩, hb, hn⟩))
  · exact .inr (.inr (.inr (.inl ⟨hc, fun hp => hnb ⟨hc, hp⟩, hb, hn⟩)))
  · exact .inr (.inr (.inr (.inr (.inl ⟨hp, fun hc => hnb ⟨hc, hp⟩, hn⟩))))
  · exact .inr (.inr (.inr (.inr (.inr
      ⟨ht, hr, fun h' => hc h'.2.2, fun h' => hp h'.2.2, hn⟩))))

/-- A step without reset, for every stimulus that is a clock cycle: one of the six tick cases on the state
without that stimulus, then what follows the tick. -/
theorem step_case {s t : State} {v : InWord} (hv : NextInput s v) (hr : inRst v = false)
    (h : step s = .next t) :
    s.cfg.Legal ∧ ∃ n, TickCase { s with stim := remaining s } v n ∧ t = late s.exp (inLevel v) n := by
  obtain ⟨hl, n, hn, ht⟩ := step_cases hv hr h
  exact ⟨hl, n, tickPart_case (s := { s with stim := remaining s }) hl hn, ht⟩

/-! ### What has no influence on a cycle (R67) -/

/-- Expiry and fire do not read the queue or the cycle count. -/
theorem late_reads_registers (e : Bool) (l : Level) (n : State) (queue : List Stim) (count : Nat) :
    late e l { n with stim := queue, cycle := count } =
      { late e l n with stim := queue, cycle := count + 1 } := by
  obtain ⟨cfg, lineQ, edgeEn, edgePend, dbCnt, sess, tkCnt, low, high, bufLen, bufSym, snapLen, snapSym,
    ready, ovr, outValid, outChar, romData, stim, cycle⟩ := n
  cases e <;> cases l <;> cases edgeEn <;> cases edgePend <;> rfl

/-- Phases 0 to 3 do not read the queue, the cycle count or the ROM's data lines of an earlier cycle. -/
theorem tickPart_reads_registers {s n : State} {v : InWord} (hl : s.cfg.Legal) (h : tickPart v s = .next n)
    (queue : List Stim) (count : Nat) (lines : Option Byte) :
    tickPart v { s with stim := queue, cycle := count, romData := lines } =
      .next { n with stim := queue, cycle := count } := by
  rw [tickPart_cases v hl] at h
  rw [tickPart_cases (s := { s with stim := queue, cycle := count, romData := lines }) v hl]
  change (if s.tick = false then _ else if inLevel v = .pressed then _
    else if s.highNext = s.cfg.confirmT then (if s.lenNext s.classify = 4#3 then _ else _)
    else if s.highNext = s.cfg.pauseT then _ else _) = _
  split at h
  · cases h
    rw [if_pos ‹_›]
    rfl
  rw [if_neg ‹_›]
  split at h
  · cases h
    rw [if_pos ‹_›]
    rfl
  rw [if_neg ‹_›]
  split at h
  · rw [if_pos ‹_›]
    split at h
    · cases h
      rw [if_pos ‹_›]
      rfl
    · cases h
      rw [if_neg ‹_›]
      rfl
  rw [if_neg ‹_›]
  split at h
  · cases h
    rw [if_pos ‹_›]
    rfl
  · cases h
    rw [if_neg ‹_›]
    rfl

/-! ### Which operations a cycle performs -/

/-- The operations of a cycle without reset, each with the condition under which it is performed (R56, R62). -/
theorem mem_cycleOps {i : Instr} {s : State} {v : InWord} (hr : inRst v = false) :
    i ∈ cycleOps s v ↔
      (inAck v = true ∧ i = if s.ready then .consume else .ackIdle) ∨
      (s.sess = true ∧ i = .tickAdv) ∨ (s.dbCnt ≠ 0 ∧ i = .oneshotAdv) ∨
      (s.fall (inLevel v) = true ∧ i = .edgeLatch (inLevel v)) ∨ i = .lineSample (inLevel v) ∨
      (s.tick = true ∧ i = tickOp (inLevel v)) ∨ (s.exp = true ∧ i = expOp (inLevel v)) := by
  have hm : ∀ (b : Bool) (l : List Instr), i ∈ opsIf b l ↔ b = true ∧ i ∈ l := by
    intro b l
    cases b <;> simp [opsIf]
  rw [cycleOps_eq hr, earlyOps]
  simp only [List.mem_append, hm, List.mem_singleton, bne_iff_ne, ne_eq, or_assoc]

end Sys2Proof.Machine
end

