-- ==== Sys2Proof/Laws/PerInstr.lean ====
section
/-! SUPPORT. Statements made of every operation as syntax, one lemma per constructor. -/

namespace Sys2Proof.Laws.EncodesOwnCondition

open Sys2Proof Sys2Proof.Safety

/-- The word an operation encodes to has its reserved bits 0 (R52) and meets the operation's own EVT condition
(R56), whatever the operands. -/
def Statement (i : Instr) : Prop :=
  (encode i).getLsbD 6 = false ∧ (encode i).getLsbD 7 = false ∧ evtCondition (encode i) i = true

theorem reset : Statement .reset := ⟨rfl, rfl, rfl⟩
theorem consume : Statement .consume := ⟨rfl, rfl, rfl⟩
theorem ackIdle : Statement .ackIdle := ⟨rfl, rfl, rfl⟩
theorem tickAdv : Statement .tickAdv := ⟨rfl, rfl, rfl⟩
theorem oneshotAdv : Statement .oneshotAdv := ⟨rfl, rfl, rfl⟩
theorem edgeLatch (lvl : Level) : Statement (.edgeLatch lvl) := by cases lvl <;> exact ⟨rfl, rfl, rfl⟩
theorem lineSample (lvl : Level) : Statement (.lineSample lvl) := by cases lvl <;> exact ⟨rfl, rfl, rfl⟩
theorem tickPress : Statement .tickPress := ⟨rfl, rfl, rfl⟩
theorem tickRelease : Statement .tickRelease := ⟨rfl, rfl, rfl⟩
theorem confirm : Statement .confirm := ⟨rfl, rfl, rfl⟩
theorem endFull : Statement .endFull := ⟨rfl, rfl, rfl⟩
theorem endPause : Statement .endPause := ⟨rfl, rfl, rfl⟩
theorem expirePress : Statement .expirePress := ⟨rfl, rfl, rfl⟩
theorem expireBounce : Statement .expireBounce := ⟨rfl, rfl, rfl⟩
theorem fire : Statement .fire := ⟨rfl, rfl, rfl⟩
theorem romRead : Statement .romRead := ⟨rfl, rfl, rfl⟩

end Sys2Proof.Laws.EncodesOwnCondition
end

