-- ==== Sys2Proof/Tests/Slice0.lean ====
section
/-! SUPPORT. The model's own tests: encodings written out bit by bit, one or two small vectors per operation
(their expected results are those of spec/95_test_vectors.md or of the rule named), the script form, and for
every statement with hypotheses a concrete state that meets them all together. -/

namespace Sys2Proof.Tests

open Sys2Proof Sys2Proof.Machine Sys2Proof.Safety

/-- Whether an outcome is a next state with a property. -/
def holds (o : Result) (p : State → Bool) : Bool :=
  match o with
  | .next s => p s
  | .fault _ => false
  | .refused _ => false

/-- Whether an outcome is a refusal of this name. -/
def refusedBy (o : Result) (r : Refusal) : Bool :=
  match o with
  | .next _ => false
  | .fault _ => false
  | .refused q => q == r

theorem next_of_holds {o : Result} {p : State → Bool} (h : holds o p = true) :
    ∃ t, o = .next t ∧ p t = true := by
  cases o with
  | next s => exact ⟨s, rfl, h⟩
  | fault r => exact nomatch r
  | refused r => cases h

/-- A state with one input vector queued. -/
def given (s : State) (v : InWord) : State := { s with stim := [.input v] }

/-- A session of the test configuration with a tick due: `low`, `high` and the buffer as given. -/
def timing (low high : Nat) (len : CodeLen) (syms : CodeSym) : State :=
  { State.reset with
    edgeEn := decide (3 ≤ high), sess := true, tkCnt := 1, low := low, high := high, bufLen := len,
    bufSym := syms }

/-- A debounce window of the test configuration with `n` cycles left. -/
def window (n : Nat) : State := { State.reset with lineQ := .pressed, edgeEn := false, dbCnt := n }

/-- A code waiting for the consumer. -/
def waiting (len : CodeLen) (syms : CodeSym) : State :=
  { State.reset with ready := true, snapLen := len, snapSym := syms }

/-! ### Well-formedness -/

theorem test_wellFormed_edgeLatch_released : (Instr.edgeLatch .released).wellFormed = false := by decide
theorem test_wellFormed_edgeLatch_pressed : (Instr.edgeLatch .pressed).wellFormed = true := by decide
/-- The word of the ill-formed term is rejected by the decoder (R52, R57). -/
theorem test_decode_edgeLatch_released :
    decode (encode (.edgeLatch .released)) = .error .fallWhileReleased := by decide
/-- A script line of no cycles is refused (R59). -/
theorem test_scriptLine_zero : (ScriptLine.mk 0 .pressed).wellFormed = false := by decide

/-! ### Decoding, from words written bit by bit: 7:6 reserved, RST, FALL, EXP, TICK, ACK, LVL (R52, R56) -/

theorem test_decode_reset : decode 0b00100000#8 = .ok [.reset] := by decide
theorem test_decode_reset_open_bits : decode 0b00101111#8 = .ok [.reset] := by decide
theorem test_decode_consume : .consume ∈ rowsOf 0b00000010#8 := by decide
theorem test_decode_ackIdle : .ackIdle ∈ rowsOf 0b00000011#8 := by decide
theorem test_decode_romRead : .romRead ∈ rowsOf 0b00000010#8 ∧ .romRead ∉ rowsOf 0b00000000#8 := by decide
theorem test_decode_tickAdv : .tickAdv ∈ rowsOf 0b00000000#8 ∧ .tickAdv ∉ rowsOf 0b00100000#8 := by decide
theorem test_decode_oneshotAdv : .oneshotAdv ∈ rowsOf 0b00000001#8 := by decide
theorem test_decode_edgeLatch : .edgeLatch .pressed ∈ rowsOf 0b00010000#8 := by decide
theorem test_decode_lineSample :
    .lineSample .released ∈ rowsOf 0b00000001#8 ∧ .lineSample .pressed ∈ rowsOf 0b00000000#8 := by decide
theorem test_decode_tickPress : .tickPress ∈ rowsOf 0b00000100#8 ∧ .tickPress ∉ rowsOf 0b00000101#8 := by
  decide
theorem test_decode_tickRelease : .tickRelease ∈ rowsOf 0b00000101#8 := by decide
theorem test_decode_confirm : .confirm ∈ rowsOf 0b00000101#8 := by decide
theorem test_decode_endFull : .endFull ∈ rowsOf 0b00000101#8 := by decide
theorem test_decode_endPause : .endPause ∈ rowsOf 0b00000101#8 ∧ .endPause ∉ rowsOf 0b00000100#8 := by decide
theorem test_decode_expirePress : .expirePress ∈ rowsOf 0b00001000#8 := by decide
theorem test_decode_expireBounce :
    .expireBounce ∈ rowsOf 0b00001001#8 ∧ .expireBounce ∉ rowsOf 0b00001000#8 := by decide
theorem test_decode_fire : .fire ∈ rowsOf 0b00010000#8 := by decide
theorem test_decode_reserved_bit6 : decode 0b01000000#8 = .error .reservedBits := by decide
theorem test_decode_reserved_bit7 : decode 0b10100000#8 = .error .reservedBits := by decide
/-- The words of R50: the reset vector of F1, and a released line with `ack`. -/
theorem test_inWord_bits :
    inWord true true .released = 0b111#3 ∧ inWord false true .released = 0b011#3 ∧
    inWord true false .pressed = 0b100#3 := by decide
/-- The fields of an event word stand where R52 says. -/
theorem test_evtWord_bits :
    evtWord true false false false false .pressed = 0b00100000#8 ∧
    evtWord false true false false false .pressed = 0b00010000#8 ∧
    evtWord false false true false false .pressed = 0b00001000#8 ∧
    evtWord false false false true false .pressed = 0b00000100#8 ∧
    evtWord false false false false true .pressed = 0b00000010#8 ∧
    evtWord false false false false false .released = 0b00000001#8 := by decide

/-! ### debounce_fsm (95_test_vectors.md, L2.A, and the examples of R71 to R78) -/

/-- R71's example. -/
theorem test_edgeLatch_falling : holds (exec (.edgeLatch .pressed) State.reset) (·.edgePend) = true := by
  decide
/-- R71: a rising edge latches nothing. -/
theorem test_edgeLatch_rising :
    holds (exec (.edgeLatch .released) { State.reset with lineQ := .pressed }) (!·.edgePend) = true := by decide
/-- R72's example: `ind_press = 1` after the edge. -/
theorem test_lineSample : holds (exec (.lineSample .pressed) State.reset) (·.indPress) = true := by decide
/-- A1: the edge is latched and fires in one cycle. -/
theorem test_A1_fire : holds (step (given State.reset 0b000#3))
    (fun t => !t.edgePend && !t.edgeEn && t.dbCnt == 2 && t.lineQ == .pressed) = true := by decide
/-- A8: a fire with the one-shot running reloads it. -/
theorem test_A8_fire_reloads : holds (exec .fire { State.reset with edgeEn := false, dbCnt := 1 })
    (fun t => !t.edgeEn && !t.edgePend && t.dbCnt == 2) = true := by decide
/-- R75's example: 2 after the fire, then 1. -/
theorem test_oneshotAdv : holds (exec .oneshotAdv (window 2)) (·.dbCnt == 1) = true := by decide
/-- R75: "no auto-repeat". -/
theorem test_oneshotAdv_idle : holds (exec .oneshotAdv State.reset) (·.dbCnt == 0) = true := by decide
/-- A6: a force-close keeps the buffer and appends nothing. -/
theorem test_A6_expirePress : holds (exec .expirePress (timing 2 20 1#3 0#4))
    (fun t => t.sess && t.low == 0 && t.high == 0 && t.tkCnt == 1 && t.bufLen == 1#3) = true := by decide
/-- L1.9: an interrupted session appends no symbol. -/
theorem test_L19_expirePress : holds (exec .expirePress (timing 5 0 0#3 0#4))
    (fun t => t.sess && t.low == 0 && t.bufLen == 0#3 && !t.edgeEn) = true := by decide
/-- A5, as the cycle it describes: a bounce clears the pending edge and does not fire. -/
theorem test_A5_expireBounce : holds (step (given { window 1 with edgePend := true } 0b001#3))
    (fun t => t.edgeEn && !t.edgePend && t.dbCnt == 0) = true := by decide

/-! ### duration_accumulator (L2.B, and the examples of R81) -/

/-- R81's example with `TICK_CYCLES = 3`: the tick reloads 3. -/
theorem test_tickAdv_reload :
    holds (exec .tickAdv { timing 0 0 0#3 0#4 with cfg := { Params.tc with tickCycles := 3 } })
      (·.tkCnt == 3) = true := by decide
/-- R81: outside a session nothing is counted. -/
theorem test_tickAdv_idle : holds (exec .tickAdv State.reset) (·.tkCnt == 0) = true := by decide
/-- B2: `low` saturates. -/
theorem test_B2_tickPress : holds (exec .tickPress (timing 65535 0 0#3 0#4)) (·.low == 65535) = true := by
  decide
/-- B5: a pressed tick does not zero `high`. -/
theorem test_B5_tickPress :
    holds (exec .tickPress (timing 0 2 0#3 0#4)) (fun t => t.low == 1 && t.high == 2) = true := by decide
/-- B4: a released tick does not zero `low`. -/
theorem test_B4_tickRelease :
    holds (exec .tickRelease (timing 5 1 0#3 0#4)) (fun t => t.high == 2 && t.low == 5) = true := by decide
/-- C3: past the confirm there is no second append. -/
theorem test_C3_tickRelease :
    holds (exec .tickRelease (timing 0 3 1#3 0#4)) (fun t => t.high == 4 && t.bufLen == 1#3) = true := by decide
/-- B6: EndTiming stops the sampler. -/
theorem test_B6_endTiming :
    (endTiming (timing 4 2 1#3 0#4)).sess = false ∧ (endTiming (timing 4 2 1#3 0#4)).tkCnt = 0 := by decide

/-! ### morse_symbol_classifier (L1.4 to L1.6, L2.C) -/

/-- L1.4: 30 pressed ticks are a Dot, and the press is closed. -/
theorem test_L14_dot : holds (tickHandler .released (timing 30 2 0#3 0#4))
    (fun t => t.high == 3 && t.bufLen == 1#3 && t.bufSym == 0b0000#4 && t.low == 0 && t.edgeEn) = true := by
  decide
/-- L1.4: 31 are a Dash. -/
theorem test_L14_dash : holds (tickHandler .released (timing 31 2 0#3 0#4))
    (fun t => t.bufLen == 1#3 && t.bufSym == 0b0001#4) = true := by decide
/-- R91's example, on CONFIRM by itself. -/
theorem test_confirm : holds (exec .confirm (timing 7 3 1#3 0#4))
    (fun t => t.bufLen == 2#3 && t.bufSym == 0b0000#4 && t.low == 0 && t.edgeEn && t.high == 3) = true := by
  decide
/-- L1.7 step 4, its third released tick, on the procedure by itself: `db_cnt` is still 2. -/
theorem test_L17_tickHandler : holds (runCall (.tickHandler .released)
    { timing 10 2 0#3 0#4 with dbCnt := 2 })
    (fun t => t.high == 3 && t.bufLen == 1#3 && t.bufSym == 0b0000#4 && t.low == 0 && t.edgeEn) = true := by
  decide
/-- The same call handed to the step is refused: the state breaks R35 item 9 (R61, R118, entry 27). -/
theorem test_L17_call_refused : refusedBy (step
    { timing 10 2 0#3 0#4 with dbCnt := 2, stim := [.call (.tickHandler .released)] }) .invariantBroken
      = true := by decide
/-- L1.6, C5: the fourth symbol ends the code in the same tick. -/
theorem test_L16_endFull : holds (tickHandler .released (timing 31 2 3#3 0b0101#4))
    (fun t => !t.sess && t.snapLen == 4#3 && t.snapSym == 0b1101#4 && t.ready && t.edgeEn && t.bufLen == 0#3)
    = true := by decide
/-- R92's example: `....` is frozen. -/
theorem test_endFull : holds (exec .endFull (timing 0 3 4#3 0#4))
    (fun t => t.snapLen == 4#3 && t.ready && !t.sess && t.bufLen == 0#3) = true := by decide
/-- C4: the pause ends the code. -/
theorem test_C4_endPause : holds (exec .tickRelease (timing 0 49 1#3 0b0001#4))
    (fun t => !t.sess && t.high == 0 && t.snapLen == 1#3 && t.snapSym == 0b0001#4 && t.ready) = true := by
  decide
/-- R94: END_PAUSE does not write `edge_en`. -/
theorem test_endPause_keeps_edgeEn :
    holds (exec .endPause { timing 0 50 1#3 0#4 with edgeEn := false }) (!·.edgeEn) = true := by decide

/-! ### code_buffer_with_ready_flag (L2.D) -/

/-- D1. -/
theorem test_D1_append : (append .dash { State.reset with bufLen := 2#3, bufSym := 0b0001#4 }).bufLen = 3#3 ∧
    (append .dash { State.reset with bufLen := 2#3, bufSym := 0b0001#4 }).bufSym = 0b0101#4 := by decide
/-- R99: an Append on a full buffer is refused by name. -/
theorem test_append_full :
    refusedBy (step { State.reset with bufLen := 4#3, stim := [.call (.append .dot)] }) .appendToFullBuffer
      = true := by decide
/-- D2. -/
theorem test_D2_endCode : (endCode { State.reset with bufLen := 2#3 }).snapLen = 2#3 ∧
    (endCode { State.reset with bufLen := 2#3 }).ovr = false := by decide
/-- D3: an overrun. -/
theorem test_D3_overrun :
    (endCode { waiting 1#3 0#4 with bufLen := 1#3, bufSym := 0b0001#4 }).ovr = true ∧
    (endCode { waiting 1#3 0#4 with bufLen := 1#3, bufSym := 0b0001#4 }).snapSym = 0b0001#4 := by decide
/-- D4: the first cycle emits `I`, the snapshot stays. -/
theorem test_D4_consume : holds (step (given (waiting 2#3 0#4) 0b011#3))
    (fun t => t.outValid && t.outChar == 0x49#8 && !t.ready && t.snapLen == 2#3) = true := by decide
/-- D6, second cycle: a held `ack` consumes once. -/
theorem test_D6_ackIdle :
    holds (step (given { waiting 4#3 0#4 with ready := false, outValid := true, outChar := 0x48#8 } 0b011#3))
      (fun t => !t.outValid && t.outChar == 0x48#8) = true := by decide
/-- L1.3: the operation by itself. -/
theorem test_L13_consume : holds (exec .consume (waiting 2#3 0#4)) (·.outChar == 0x49#8) = true := by decide
/-- D5. -/
theorem test_D5_ackIdle : holds (step (given State.reset 0b011#3))
    (fun t => !t.outValid && t.outChar == 0x00#8 && !t.ready) = true := by decide

/-! ### morse_to_ascii_lut (L1.1, L2.E) -/

/-- L1.1, the first half of its rows: address and byte. -/
theorem test_L11_A_to_M :
    [0x22#7, 0x41#7, 0x45#7, 0x31#7, 0x10#7, 0x44#7, 0x33#7, 0x40#7, 0x20#7, 0x4E#7, 0x35#7, 0x42#7,
      0x23#7].map (rom Params.tc) =
    [0x41#8, 0x42#8, 0x43#8, 0x44#8, 0x45#8, 0x46#8, 0x47#8, 0x48#8, 0x49#8, 0x4A#8, 0x4B#8, 0x4C#8,
      0x4D#8] := by decide +kernel
/-- L1.1, the second half. -/
theorem test_L11_N_to_Z :
    [0x21#7, 0x37#7, 0x46#7, 0x4B#7, 0x32#7, 0x30#7, 0x11#7, 0x34#7, 0x48#7, 0x36#7, 0x49#7, 0x4D#7,
      0x43#7].map (rom Params.tc) =
    [0x4E#8, 0x4F#8, 0x50#8, 0x51#8, 0x52#8, 0x53#8, 0x54#8, 0x55#8, 0x56#8, 0x57#8, 0x58#8, 0x59#8,
      0x5A#8] := by decide +kernel
/-- E1, E4, E5, E8 to E13: the sentinel. -/
theorem test_E_sentinel :
    [0x00#7, 0x12#7, 0x1F#7, 0x47#7, 0x4A#7, 0x4C#7, 0x4F#7, 0x50#7, 0x7F#7].all
      (fun a => rom Params.tc a == 0x3F#8) = true := by decide +kernel
/-- E15, E16: `SENTINEL` changes only the unmatched entries. -/
theorem test_E15_E16 :
    rom { Params.tc with sentinel := 0x00#8 } 0x41#7 = 0x42#8 ∧
    rom { Params.tc with sentinel := 0x00#8 } 0x47#7 = 0x00#8 := by decide +kernel
/-- R107: the byte is on the data lines and no register is written. -/
theorem test_romRead : holds (exec .romRead (waiting 2#3 0#4))
    (fun t => t.romData == some 0x49#8 && t.outChar == 0x00#8 && t.ready) = true := by decide

/-! ### RESET (L2.F) -/

/-- F1's last cycle: the ack is ignored, and the session is gone. -/
theorem test_F1_reset :
    holds (step (given { timing 17 0 0#3 0#4 with lineQ := .pressed, ready := true, snapLen := 1#3 } 0b111#3))
      (fun t => t.lineQ == .released && t.edgeEn && !t.sess && t.low == 0 && !t.ready && !t.outValid && !t.ovr)
      = true := by decide
/-- F3: `line_q` takes 1 whatever the line. -/
theorem test_F3_reset : holds (step (given (window 1) 0b100#3)) (·.lineQ == .released) = true := by decide

/-! ### The harness (R57, R61, R118) and the parameters (R1, R2) -/

theorem test_event_consistent :
    holds (step { window 1 with stim := [.event 0b00001001#8] }) (·.edgeEn) = true := by decide
theorem test_event_inconsistent :
    refusedBy (step { State.reset with stim := [.event 0b00000101#8] }) .inconsistentEvt = true := by decide
theorem test_event_reserved :
    refusedBy (step { State.reset with stim := [.event 0b01000001#8] }) .reservedEvtBits = true := by decide
theorem test_call_invariantBroken :
    refusedBy (step { State.reset with low := 1, stim := [.call (.op .fire)] }) .invariantBroken = true := by
  decide
theorem test_illegal_parameters :
    refusedBy (step { State.reset with cfg := { Params.tc with confirmT := 50 } }) .illegalParameters = true := by
  decide
/-- R1's nominal counts at 1 MHz: 20 ms and 10 ms. -/
theorem test_nominal :
    (Params.nominal 1000000).debounceCycles = 20000 ∧ (Params.nominal 1000000).tickCycles = 10000 ∧
    (Params.nominal 1000000).Legal := by decide
/-- R21, R23: the width of a timer of 2, and of 3, cycles; R21's least `w` with `2^w > n`. -/
theorem test_timerWidth : timerWidth 1 = 1 ∧ timerWidth 2 = 2 ∧ timerWidth 3 = 2 ∧ timerWidth 4 = 3 := by
  decide

/-! ### Scripts (R59, R60) -/

theorem test_parse_line : parseLine "33 P ; pressed".toList = some ⟨33, .pressed⟩ := by decide
theorem test_parse_reset : parseLine "1 RST".toList = some ⟨1, .reset⟩ := by decide
theorem test_parse_refused : parseLine "0 P".toList = none ∧ parseLine "4 Q".toList = none := by decide
/-- R60 under TC: KEYDOT is 4 pressed and 3 released cycles, ENDCODE 47 released ones. -/
theorem test_macros :
    encodeScript (keyDot Params.tc) = [(4, 0b000#3), (3, 0b001#3)] ∧
    encodeScript (endCodeLine Params.tc) = [(47, 0b001#3)] := by decide
/-- The default configuration's KEYDASH: `1 + 2 + 31` pressed cycles. -/
theorem test_keyDash : encodeScript (keyDash Params.tc) = [(34, 0b000#3), (3, 0b001#3)] := by decide
/-- R59: a script expands to one vector per cycle. -/
theorem test_expand : expand [(2, 0b000#3), (1, 0b011#3)] = [0b000#3, 0b000#3, 0b011#3] := by decide

/-- An opcode-table word is run as the very next step (a pressed tick counts in `low`). -/
theorem test_withFetchWord : holds (step (State.reset.withFetchWord 8 0x04)) (·.low == 1) = true := by decide

/-! ### Witnesses: states that meet every statement's hypotheses together -/

/-- A clock cycle without reset that answers a next state. -/
abbrev Cycles (s : State) (v : InWord) : Prop :=
  NextInput s v ∧ inRst v = false ∧ ∃ t, step s = .next t

theorem cycles_given {s : State} {v : InWord} (hr : inRst v = false)
    (h : holds (step (given s v)) (fun _ => true) = true) : Cycles (given s v) v := by
  obtain ⟨t, ht, -⟩ := next_of_holds h
  exact ⟨.inl ⟨[], rfl⟩, hr, t, ht⟩

/-- DecodeListsEvtConditions, DecodeOfEncode: an acceptable word, and a well-formed operation. -/
theorem witness_decode : (∃ ops, decode 0b00011110#8 = .ok ops) ∧ (Instr.edgeLatch .pressed).wellFormed = true :=
  ⟨⟨_, rfl⟩, rfl⟩
/-- StepRunsSelectedOperations, StepFollowsPseudocode, EdgeLatchEffect's cycle: a falling edge after reset. -/
theorem witness_step_input : Params.tc.Legal ∧ (given State.reset 0b000#3).stim = .input 0b000#3 :: [] ∧
    inRst 0b000#3 = false := by decide
/-- ResetCycleOverridesInputs: a reset with every other input active, in an open session. -/
theorem witness_reset_cycle : (timing 17 0 0#3 0#4).cfg.Legal ∧ inRst 0b110#3 = true := by decide
/-- QuietCycle: a press during a debounce window of two cycles, notification off. -/
theorem witness_quiet : (window 2).cfg.Legal ∧ inRst 0b000#3 = false ∧
    ¬ ((window 2).sess = true ∧ (window 2).tkCnt = 1) ∧ (window 2).dbCnt ≠ 1 ∧
    ¬ (inAck 0b000#3 = true ∧ (window 2).ready = true) ∧
    ¬ ((window 2).edgeEn = true ∧ ((window 2).edgePend = true ∨
      (window 2).lineQ = .released ∧ inLevel 0b000#3 = .pressed)) := by decide
/-- ClockCycleIsTotal: an empty queue, and a queued input, in a session. -/
theorem witness_total : (timing 0 2 3#3 0#4).cfg.Legal ∧ (timing 0 2 3#3 0#4).stim = [] ∧
    (given (timing 0 2 3#3 0#4) 0b001#3).stim = .input 0b001#3 :: [] := by decide
/-- IllegalParametersRefused: the thresholds equal, and a legal set. -/
theorem witness_illegal : ¬ ({ Params.tc with confirmT := 50 } : Params).Legal ∧
    ({ Params.tc with confirmT := 50 } : Params).pauseT ≤ ({ Params.tc with confirmT := 50 } : Params).confirmT ∧
    Params.tc.Legal := by decide
/-- HarnessEventWords: each branch. -/
theorem witness_event : Params.tc.Legal ∧ (0x40#8).getLsbD 6 = true ∧
    0b00001001#8 = (window 1).evt (evtInput 0b00001001#8) ∧
    0b00000101#8 ≠ (window 1).evt (evtInput 0b00000101#8) := by decide
/-- CycleIsFunctionOfRegistersAndInput: a release-confirm with an input queued. -/
theorem witness_function : (given (timing 0 2 1#3 0#4) 0b001#3).cfg.Legal ∧
    (given (timing 0 2 1#3 0#4) 0b001#3).stim = .input 0b001#3 :: [] := by decide
/-- A state with one handler-level call queued. -/
def called (s : State) (c : Call) : State := { s with stim := [.call c] }
/-- HandlerCallsChecked, each clause: a call on a state with the invariants; one on a state without them; and, on
states without them, an Append at the two lengths where its outcomes meet, 3 and 4. -/
theorem witness_call :
    ((called (window 1) .endTiming).cfg.Legal ∧ (called (window 1) .endTiming).Inv) ∧
    ((called (timing 0 50 0#3 0#4) .endCode).cfg.Legal ∧ ¬ (called (timing 0 50 0#3 0#4) .endCode).Inv) ∧
    (¬ (called (timing 0 50 3#3 0#4) (.append .dot)).Inv ∧
      refusedBy (step (called (timing 0 50 3#3 0#4) (.append .dot))) .invariantBroken = true) ∧
    (¬ (called (timing 0 3 4#3 0#4) (.append .dot)).Inv ∧
      refusedBy (step (called (timing 0 3 4#3 0#4) (.append .dot))) .appendToFullBuffer = true) :=
  ⟨⟨by decide, by decide⟩, ⟨by decide, by decide⟩, ⟨by decide, by decide⟩, by decide, by decide⟩
/-- TickReleaseWithoutConfirm: the pause tick, a tick at neither threshold, and the greatest `high` that fits. -/
theorem witness_tickRelease :
    (timing 0 49 1#3 0#4).cfg.confirmT ≠ (timing 0 49 1#3 0#4).cfg.pauseT ∧
    (timing 0 49 1#3 0#4).highNext ≠ (timing 0 49 1#3 0#4).cfg.confirmT ∧
    (timing 0 49 1#3 0#4).highNext = (timing 0 49 1#3 0#4).cfg.pauseT ∧
    (timing 0 48 1#3 0#4).highNext ≠ (timing 0 48 1#3 0#4).cfg.pauseT ∧
    (timing 0 65534 1#3 0#4).high + 1 < 2 ^ (timing 0 65534 1#3 0#4).cfg.cntW := by decide
/-- TickReleaseConfirms, AppendToFullBuffer: the confirm tick, and an Append called on a full buffer. -/
theorem witness_confirm_tick :
    (timing 0 2 1#3 0#4).highNext = (timing 0 2 1#3 0#4).cfg.confirmT ∧
    4 ≤ ({ timing 0 2 4#3 0#4 with stim := [.call (.append .dot)] } : State).bufLen.toNat ∧
    ({ timing 0 2 4#3 0#4 with stim := [.call (.append .dot)] } : State).cfg.Legal := by decide
/-- AppendInsertsOneSymbol, ConfirmAddsSymbol, ConfirmEndsFullCode, each at its greatest length. -/
theorem witness_lengths : (3#3 : CodeLen).toNat < 4 ∧ (2#3 : CodeLen).toNat < 3 ∧ (3#3 : CodeLen).toNat = 3 := by
  decide
/-- SentinelWhereUnassigned: each of its cases at a boundary. -/
theorem witness_sentinel :
    (0#3 : CodeLen).toNat = 0 ∧ 5 ≤ (5#3 : CodeLen).toNat ∧ ¬ Canonical 3#3 0b1000#4 ∧
    (4#3 : CodeLen).toNat = 4 ∧ Canonical 1#3 0b0001#4 ∧ Canonical 4#3 0b1110#4 := by decide
/-- ResetEffect: its result from a legal state that breaks every rule of the session. -/
theorem witness_resetEffect : (timing 5 60 7#3 0xF#4).cfg.Legal ∧
    exec .reset (timing 5 60 7#3 0xF#4) = .next State.reset := ⟨by decide, rfl⟩
/-- CycleKeepsParameters, OutputLifetime: a cycle named by a harness's event word, and one with an input queued. -/
theorem witness_nextInput :
    NextInput { window 1 with stim := [.event 0b00001001#8] } 0b001#3 ∧
    (∃ t, step { window 1 with stim := [.event 0b00001001#8] } = .next t) ∧
    Cycles (given (waiting 2#3 0#4) 0b011#3) 0b011#3 :=
  ⟨.inr (.inr ⟨_, [], rfl, by decide⟩),
    (next_of_holds (p := fun _ => true) (by decide)).imp fun _ h => h.1,
    cycles_given (by decide) (by decide)⟩
/-- OutputLifetime: a reset cycle that answers a next state. -/
theorem witness_nextInput_reset :
    NextInput (given (waiting 2#3 0#4) 0b111#3) 0b111#3 ∧ inRst 0b111#3 = true ∧
    ∃ t, step (given (waiting 2#3 0#4) 0b111#3) = .next t :=
  ⟨.inl ⟨[], rfl⟩, by decide, (next_of_holds (p := fun _ => true) (by decide)).imp fun _ h => h.1⟩
/-- SnapshotFrozen, BusyFallsOnlyAtEndOfCode: a pause, and a fourth symbol. -/
theorem witness_endsCode :
    Cycles (given (timing 0 49 1#3 0#4) 0b001#3) 0b001#3 ∧ PauseTick (timing 0 49 1#3 0#4) 0b001#3 ∧
    Cycles (given (timing 0 2 3#3 0#4) 0b001#3) 0b001#3 ∧ ConfirmTick (timing 0 2 3#3 0#4) 0b001#3 :=
  ⟨cycles_given (by decide) (by decide), by decide, cycles_given (by decide) (by decide), by decide⟩
/-- ReadyAndOverrun: a code ends over an unconsumed one. -/
theorem witness_overrun :
    Cycles (given { timing 0 49 1#3 0#4 with ready := true, snapLen := 1#3 } 0b001#3) 0b001#3 ∧
    PauseTick { timing 0 49 1#3 0#4 with ready := true, snapLen := 1#3 } 0b001#3 ∧ inAck 0b001#3 = false :=
  ⟨cycles_given (by decide) (by decide), by decide, by decide⟩
/-- ConsumeWithEndOfCode: by the pause, and by the fourth symbol. -/
theorem witness_consume_end :
    Cycles (given { timing 0 49 1#3 0#4 with ready := true, snapLen := 1#3 } 0b011#3) 0b011#3 ∧
    PauseTick { timing 0 49 1#3 0#4 with ready := true, snapLen := 1#3 } 0b011#3 ∧
    Cycles (given { timing 0 2 3#3 0#4 with ready := true, snapLen := 1#3 } 0b011#3) 0b011#3 ∧
    ConfirmTick { timing 0 2 3#3 0#4 with ready := true, snapLen := 1#3 } 0b011#3 ∧ inAck 0b011#3 = true :=
  ⟨cycles_given (by decide) (by decide), by decide, cycles_given (by decide) (by decide), by decide, by decide⟩
/-- Interlock: a fire clears `edge_en`, and a bounce sets it. -/
theorem witness_interlock :
    Cycles (given State.reset 0b000#3) 0b000#3 ∧
    holds (step (given State.reset 0b000#3)) (!·.edgeEn) = true ∧
    Cycles (given (window 1) 0b001#3) 0b001#3 ∧
    holds (step (given (window 1) 0b001#3)) (·.edgeEn) = true :=
  ⟨cycles_given (by decide) (by decide), by decide, cycles_given (by decide) (by decide), by decide⟩
/-- CountersZeroedOnlyThere: `low` at its greatest value goes down at a confirm; `high` at a pause. -/
theorem witness_counters :
    Cycles (given (timing 65535 2 0#3 0#4) 0b001#3) 0b001#3 ∧
    (timing 65535 2 0#3 0#4).low ≤ Params.tc.cntMax ∧ (timing 65535 2 0#3 0#4).high < Params.tc.cntMax ∧
    holds (step (given (timing 65535 2 0#3 0#4) 0b001#3)) (·.low == 0) = true ∧
    holds (step (given (timing 0 49 1#3 0#4) 0b001#3)) (·.high == 0) = true :=
  ⟨cycles_given (by decide) (by decide), by decide, by decide, by decide, by decide⟩
/-- OneCounterPerTick: a pressed and a released tick, and a cycle outside a session. -/
theorem witness_oneCounter :
    Cycles (given (timing 0 0 0#3 0#4) 0b000#3) 0b000#3 ∧ (timing 0 0 0#3 0#4).Inv ∧
    (timing 0 0 0#3 0#4).tick = true ∧ ¬ ConfirmTick (timing 0 0 0#3 0#4) 0b000#3 ∧
    ¬ PauseTick (timing 0 0 0#3 0#4) 0b000#3 ∧
    Cycles (given (timing 0 0 0#3 0#4) 0b001#3) 0b001#3 ∧ ¬ ConfirmTick (timing 0 0 0#3 0#4) 0b001#3 ∧
    Cycles (given State.reset 0b001#3) 0b001#3 ∧ State.reset.Inv :=
  ⟨cycles_given (by decide) (by decide), by decide, by decide, by decide, by decide,
    cycles_given (by decide) (by decide), by decide, cycles_given (by decide) (by decide), by decide⟩
/-- OneSymbolPerSession: just past the confirm, and at the pause. -/
theorem witness_oneSymbol :
    Cycles (given (timing 0 3 1#3 0#4) 0b001#3) 0b001#3 ∧ (timing 0 3 1#3 0#4).Inv ∧
    Params.tc.confirmT ≤ (timing 0 3 1#3 0#4).high ∧
    Cycles (given (timing 0 49 1#3 0#4) 0b001#3) 0b001#3 ∧ (timing 0 49 1#3 0#4).Inv ∧
    PauseTick (timing 0 49 1#3 0#4) 0b001#3 :=
  ⟨cycles_given (by decide) (by decide), by decide, by decide, cycles_given (by decide) (by decide), by decide,
    by decide⟩
/-- BufferChangesOnlyAtConfirm: a confirm on two symbols, and a cycle with no threshold. -/
theorem witness_buffer :
    Cycles (given (timing 0 2 2#3 0#4) 0b001#3) 0b001#3 ∧ ConfirmTick (timing 0 2 2#3 0#4) 0b001#3 ∧
    (timing 0 2 2#3 0#4).bufLen.toNat < 3 ∧ ¬ ConfirmTick State.reset 0b001#3 ∧ ¬ PauseTick State.reset 0b001#3 :=
  ⟨cycles_given (by decide) (by decide), by decide, by decide, by decide, by decide⟩
/-- ExpiryCoincidences: an expiry with the line released, and with a falling edge in the same cycle. -/
theorem witness_expiry :
    Cycles (given (window 1) 0b001#3) 0b001#3 ∧ (window 1).dbCnt = 1 ∧ (window 1).edgeEn = false ∧
    Cycles (given { window 1 with lineQ := .released } 0b000#3) 0b000#3 ∧ inLevel 0b000#3 = .pressed :=
  ⟨cycles_given (by decide) (by decide), by decide, by decide, cycles_given (by decide) (by decide), by decide⟩
/-- PendingEdgeFiresAtConfirm. -/
theorem witness_pendingEdge :
    Cycles (given { timing 0 2 0#3 0#4 with edgePend := true } 0b001#3) 0b001#3 ∧
    ConfirmTick { timing 0 2 0#3 0#4 with edgePend := true } 0b001#3 ∧
    ({ timing 0 2 0#3 0#4 with edgePend := true } : State).dbCnt ≠ 1 :=
  ⟨cycles_given (by decide) (by decide), by decide, by decide⟩
/-- HeldPressFiresAfterReset. -/
theorem witness_heldPress : Params.tc.Legal ∧ inRst 0b000#3 = false ∧ inLevel 0b000#3 = .pressed := by decide
/-- CyclesKeepInvariants: a reset and a confirm from states that have them. -/
theorem witness_kept : Kept (timing 0 2 1#3 0#4) ∧ Cycles (given (timing 0 2 1#3 0#4) 0b001#3) 0b001#3 :=
  ⟨by decide, cycles_given (by decide) (by decide)⟩
/-- InvariantsHoldInEveryRun: the reset state is a clean launch. -/
theorem witness_cleanLaunch : CleanLaunch State.reset := ⟨by decide, rfl⟩
/-- StepsKeepRegisterRanges, at greatest values: a full buffer that the pause ends. -/
theorem witness_inRange : InRange (given (timing 65535 49 4#3 0#4) 0b001#3) ∧
    Cycles (given (timing 65535 49 4#3 0#4) 0b001#3) 0b001#3 :=
  ⟨by decide, cycles_given (by decide) (by decide)⟩
/-- OneDecisionPerArming, ShortPressInvisible: a window of two cycles, whole and in part. -/
theorem witness_window : (window 2).cfg.Legal ∧ Kept (window 2) ∧ 0 < (window 2).dbCnt ∧
    [0b001#3].length < (window 2).dbCnt ∧ [0b001#3, 0b000#3].length = (window 2).dbCnt ∧
    (window 2).sess = false ∧ (∀ v ∈ [0b001#3, 0b000#3], inRst v = false) ∧ inLevel 0b001#3 = .released := by
  decide
/-- HeldPressNeverEnds, PressedTicksCounted: a session just opened, with `TICK_CYCLES = 3`. -/
theorem witness_pressed_run :
    let s : State := { timing 0 0 0#3 0#4 with cfg := { Params.tc with tickCycles := 3 }, tkCnt := 3 }
    s.cfg.Legal ∧ Kept s ∧ s.sess = true ∧ s.tkCnt = s.cfg.tickCycles ∧ s.low = 0 ∧ s.high = 0 ∧
    (∀ v ∈ [0b000#3, 0b010#3, 0b000#3], inRst v = false ∧ inLevel v = .pressed) := by decide

end Sys2Proof.Tests
end

section
/-! The refusal of illegal parameter sets (R2). -/

namespace Sys2Proof.Machine

open Sys2Proof

/-- R2: the parameter check comes before everything else a step does. -/
theorem step_illegal {s : State} (hl : ¬ s.cfg.Legal) : step s = .refused .illegalParameters :=
  if_neg hl

/-- R1 keeps the confirm threshold below the pause threshold. -/
theorem not_legal_of_pauseT_le_confirmT {p : Params} (h : p.pauseT ≤ p.confirmT) : ¬ p.Legal := by
  rintro ⟨-, -, -, -, hlt, -⟩
  exact absurd hlt h.not_gt

/-- Settles O13: the check refuses an illegal set, the order of the thresholds is part of R1's ranges, and a
next state is not a refusal. -/
theorem illegalParametersRefused : Obligations.IllegalParametersRefused := by
  intro s
  refine ⟨step_illegal, ?_, ?_⟩
  · intro hle
    exact step_illegal (not_legal_of_pauseT_le_confirmT hle)
  · rintro ⟨t, ht⟩
    exact legal_of_step ht

end Sys2Proof.Machine
end

section
/-! What no clock cycle changes (R37): the parameters; and what it takes of the model's own fields. -/

namespace Sys2Proof.Machine

open Sys2Proof Sys2Proof.Safety

/-- Settles O37: every next state is a next state of the clock cycle on the state without its first stimulus,
and no clock cycle touches the parameters or the queue. -/
theorem cycleKeepsParameters : Obligations.CycleKeepsParameters := by
  intro s t v hv h
  have hl := legal_of_step h
  exact clock_environment (s := { s with stim := remaining s }) hl (step_next_of_input hl hv h)

end Sys2Proof.Machine
end

section
/-! R35, items 1 to 9, kept by every clock cycle. Inside a cycle item 7 is open until the fire, and a due expiry
rests on facts of the state at the start of the cycle; `Working` is what phases 0 to 3 keep instead, and the
expiry and the fire turn it back into `Kept`. -/

namespace Sys2Proof.Machine

open Sys2Proof Sys2Proof.Safety

/-- The working copy of a cycle before expiry and fire: `Kept` without item 7 of R35, and what the expiry that is
due (`exp`) will find at the level `lvl`. -/
structure Working (exp : Bool) (lvl : Level) (n : State) : Prop where
  legal : n.cfg.Legal
  sampler : n.Inv1
  oneshot : n.Inv2
  idle : n.Inv3
  pause : n.Inv4
  buffer : n.Inv5
  snapshot : n.Inv6
  window : n.Inv8
  unconfirmed : n.Inv9
  low_le : n.low ≤ n.cfg.cntMax
  symbol : n.sess = true → n.cfg.confirmT ≤ n.high → 1 ≤ n.bufLen.toNat
  rom : n.romData = none
  /-- The one-shot is idle again; a press finds notification off, and a bounce no session that still waits for its
  release-confirm. -/
  expiry : exp = true → n.dbCnt = 0 ∧ (lvl = .pressed → n.edgeEn = false) ∧
    (lvl = .released → n.sess = true → n.cfg.confirmT ≤ n.high)

section

variable {e : Bool} {l : Level} {m n s t : State} {v : InWord}

/-- With nothing left to fire, `Working` is `Kept`. -/
theorem Working.kept (h : Working e l n) (h7 : n.Inv7) : Kept n :=
  ⟨⟨h.sampler, h.oneshot, h.idle, h.pause, h.buffer, h.snapshot, h7, h.window, h.unconfirmed⟩,
    h.low_le, h.symbol, h.rom⟩

/-! ### Phases 0 to 2 -/

/-- The sampling tick's phase stays in the range 1 to `TICK_CYCLES` (R81). -/
theorem tkNext_pos (hl : s.cfg.Legal) (h : 1 ≤ s.tkCnt) : 1 ≤ s.tkNext := by
  obtain ⟨-, -, htc, -⟩ := hl
  unfold State.tkNext countdown
  split <;> omega

/-- The early phases keep item 1 of R35: in a session the tick's phase advances, outside one it stays 0. -/
theorem early_inv1 (v : InWord) (hl : s.cfg.Legal) (h : s.Inv1) : (early v s).Inv1 := by
  obtain ⟨hidle, hrun⟩ := h
  by_cases hs : s.sess = true
  · have htk : (early v s).tkCnt = s.tkNext := if_pos hs
    have hpos := tkNext_pos hl (hrun hs).1
    have hle := tkNext_le (hrun hs).2
    rw [State.Inv1, htk]
    exact ⟨iff_of_false (Nat.ne_of_gt hpos) (ne_false_of_eq_true hs), fun _ => ⟨hpos, hle⟩⟩
  · have htk : (early v s).tkCnt = s.tkCnt := if_neg hs
    rw [State.Inv1, htk]
    exact ⟨hidle, hrun⟩

/-- The early phases of a cycle from a kept state: consume, timers and edge detector. -/
theorem early_working (v : InWord) (hl : s.cfg.Legal) (h : Kept s) :
    Working s.exp (inLevel v) (early v s) := by
  obtain ⟨⟨h1, h2, h3, h4, h5, ⟨hlen, hcan, hready⟩, -, h8, h9⟩, hlow, hsym, -⟩ := h
  exact {
    legal := hl
    sampler := early_inv1 v hl h1
    oneshot := (Nat.sub_le _ _).trans h2
    idle := h3
    pause := h4
    buffer := h5
    snapshot := ⟨hlen, hcan, fun hr => hready (Bool.and_elim_left hr)⟩
    window := fun hpos => h8 (hpos.trans_le (Nat.sub_le _ _))
    unconfirmed := fun hs => ⟨(h9 hs).1, congrArg (· - 1) (h9 hs).2⟩
    low_le := hlow
    symbol := hsym
    rom := rfl
    expiry := fun he => by
      have hdb : s.dbCnt = 1 := by simpa [State.exp] using he
      refine ⟨congrArg (· - 1) hdb, fun _ => h8 (by omega), fun _ hs => ?_⟩
      by_contra hlt
      have := (h9 ⟨hs, Nat.lt_of_not_le hlt⟩).2
      omega }

/-! ### Phase 3: the tick -/

/-- A pressed tick's count in an open session (R85). -/
theorem Working.low_counted (h : Working e l m) (hs : m.sess = true) :
    Working e l { m with low := m.lowNext } :=
  { h with
    idle := fun hs' => nomatch hs.symm.trans hs'
    low_le := lowNext_le m }

/-- A released tick's count in an open session that reaches neither threshold (R86, R95). -/
theorem Working.high_counted (h : Working e l m) (hs : m.sess = true)
    (hc : m.high + 1 ≠ m.cfg.confirmT) (hp : m.high + 1 ≠ m.cfg.pauseT) :
    Working e l { m with high := m.high + 1 } :=
  { h with
    idle := fun hs' => nomatch hs.symm.trans hs'
    pause := Nat.lt_of_le_of_ne h.pause hp
    unconfirmed := fun ⟨_, hlt⟩ => h.unconfirmed ⟨hs, (Nat.lt_succ_self _).trans hlt⟩
    symbol := fun _ hle => h.symbol hs (Nat.lt_succ_iff.1 (Nat.lt_of_le_of_ne hle hc.symm))
    expiry := fun he =>
      have ⟨hdb, hen, hhigh⟩ := h.expiry he
      ⟨hdb, hen, fun hl _ => (hhigh hl hs).trans (Nat.le_succ _)⟩ }

/-- A code that is not empty and holds at most four symbols ends (R93, R100): the snapshot takes it, and the session
and the working buffer are empty. -/
theorem endCode_working (hl : m.cfg.Legal) (h2 : m.Inv2) (h8 : m.Inv8) (hrom : m.romData = none)
    (hpos : 1 ≤ m.bufLen.toNat) (hle : m.bufLen.toNat ≤ 4) (hcan : Canonical m.bufLen m.bufSym)
    (hexp : e = true → m.dbCnt = 0) : Working e .released (endCode (endTiming m)) where
  legal := hl
  sampler := ⟨⟨fun _ => rfl, fun _ => rfl⟩, nofun⟩
  oneshot := h2
  idle := fun _ => ⟨rfl, rfl⟩
  pause := by
    obtain ⟨-, -, -, -, hcp, -⟩ := hl
    exact Nat.zero_lt_of_lt hcp
  buffer := ⟨by simp, fun _ _ => by simp⟩
  snapshot := ⟨hle, hcan, fun _ => hpos⟩
  window := h8
  unconfirmed := nofun
  low_le := Nat.zero_le _
  symbol := nofun
  rom := hrom
  expiry := fun he => ⟨hexp he, by simp, by simp⟩

/-- Append to a buffer that keeps R35 leaves a code of one to four symbols (R98). -/
theorem append_code (b : Sym) (h : m.Inv5) :
    1 ≤ (m.lenNext b).toNat ∧ (m.lenNext b).toNat ≤ 4 ∧ Canonical (m.lenNext b) (m.symNext b) := by
  obtain ⟨hlen, hcan⟩ := h
  have hlt : m.bufLen.toNat < 4 := Nat.lt_succ_of_le hlen
  rw [lenNext_of_lt b hlt, symNext_of_lt b hlt, len_succ _ hlt]
  exact ⟨Nat.le_add_left _ _, hlt, insertSym_canonical _ _ b hlt hcan⟩

/-- A released tick that reaches the pause ends the code (R94): the session is past its release-confirm, so the
code is not empty. -/
theorem Working.paused (h : Working e .released m) (hs : m.sess = true) (hp : m.high + 1 = m.cfg.pauseT) :
    Working e .released (endCode (endTiming { m with high := m.high + 1 })) := by
  have hpast : m.cfg.confirmT ≤ m.high := by
    obtain ⟨-, -, -, -, hcp, -⟩ := h.legal
    omega
  exact endCode_working h.legal h.oneshot h.window h.rom (h.symbol hs hpast)
    (h.buffer.1.trans (by decide)) h.buffer.2 fun he => (h.expiry he).1

/-- A released tick that reaches the release-confirm finds the one-shot idle and no expiry due (R35 item 9). -/
theorem Working.confirm_quiet (h : Working e .released m) (hs : m.sess = true)
    (hc : m.high + 1 = m.cfg.confirmT) : m.dbCnt = 0 ∧ e = false := by
  have hlt : m.high < m.cfg.confirmT := by omega
  refine ⟨(h.unconfirmed ⟨hs, hlt⟩).2, ?_⟩
  cases e
  · rfl
  · exact absurd ((h.expiry rfl).2.2 rfl hs) (Nat.not_le_of_lt hlt)

/-- A release-confirm that does not fill the buffer (R91). -/
theorem Working.confirm_adds (h : Working e .released m) (hs : m.sess = true)
    (hc : m.high + 1 = m.cfg.confirmT) (hlen : m.lenNext m.classify ≠ 4#3) :
    Working e .released (confirmed { m with high := m.high + 1 }) := by
  obtain ⟨hdb, he⟩ := h.confirm_quiet hs hc
  obtain ⟨hpos, hle, hcan⟩ := append_code m.classify h.buffer
  have hne : (m.lenNext m.classify).toNat ≠ 4 := fun h4 => hlen (BitVec.eq_of_toNat_eq h4)
  obtain ⟨-, -, -, -, hcp, -⟩ := h.legal
  exact { h with
    idle := fun hs' => nomatch hs.symm.trans hs'
    pause := hc.trans_lt hcp
    buffer := ⟨Nat.lt_succ_iff.1 (Nat.lt_of_le_of_ne hle hne), hcan⟩
    window := fun hdb' => absurd hdb hdb'.ne'
    unconfirmed := fun ⟨_, hlt⟩ => absurd hc hlt.ne
    low_le := Nat.zero_le _
    symbol := fun _ _ => hpos
    expiry := fun he' => nomatch he.symm.trans he' }

/-- A release-confirm that fills the buffer ends the code (R92). -/
theorem Working.confirm_ends (h : Working e .released m) (hs : m.sess = true)
    (hc : m.high + 1 = m.cfg.confirmT) :
    Working e .released (endCode (endTiming (confirmed { m with high := m.high + 1 }))) := by
  obtain ⟨hdb, -⟩ := h.confirm_quiet hs hc
  obtain ⟨hpos, hle, hcan⟩ := append_code m.classify h.buffer
  exact endCode_working h.legal h.oneshot (fun hdb' => absurd hdb hdb'.ne') h.rom hpos hle hcan
    fun _ => hdb

/-- Phases 0 to 3 of a cycle from a kept state, in each of the tick's six cases. -/
theorem tickPart_working (hl : s.cfg.Legal) (h : Kept s) (hn : tickPart v s = .next n) :
    Working s.exp (inLevel v) n := by
  have hw := early_working v hl h
  have hhigh : s.highNext = s.high + 1 := highNext_of_legal hl hw.pause
  have hrel : released v s = { early v s with high := (early v s).high + 1 } := by
    rw [released, hhigh]
    rfl
  have hsess : s.tick = true → (early v s).sess = true := Bool.and_elim_left
  rcases tickPart_next hl hn with ⟨-, rfl⟩ | ⟨ht, -, rfl⟩ | ⟨⟨ht, hv, hc⟩, hlen, rfl⟩ |
    ⟨⟨ht, hv, hc⟩, -, rfl⟩ | ⟨⟨ht, hv, hp⟩, rfl⟩ | ⟨ht, -, hc, hp, rfl⟩
  · exact hw
  · exact hw.low_counted (hsess ht)
  · rw [hv] at hw ⊢
    rw [hrel]
    exact hw.confirm_adds (hsess ht) (hhigh.symm.trans hc) hlen
  · rw [hv] at hw ⊢
    rw [hrel]
    exact hw.confirm_ends (hsess ht) (hhigh.symm.trans hc)
  · rw [hv] at hw ⊢
    rw [hrel]
    exact hw.paused (hsess ht) (hhigh.symm.trans hp)
  · rw [hrel]
    exact hw.high_counted (hsess ht) (hhigh ▸ hc) (hhigh ▸ hp)

/-! ### Phases 4 and 5: expiry and fire -/

/-- The expiry, after which none is due (R77, R78). -/
theorem Working.after_expiry (h : Working e l n) : Working false l (expired e l n) := by
  cases e
  · exact h
  · obtain ⟨hdb, hen, hhigh⟩ := h.expiry rfl
    obtain ⟨-, -, htc, hct, hcp, -⟩ := h.legal
    cases l
    · exact { h with
        sampler := ⟨iff_of_false (Nat.ne_of_gt htc) nofun, fun _ => ⟨htc, le_rfl⟩⟩
        idle := fun _ => ⟨rfl, rfl⟩
        pause := Nat.zero_lt_of_lt hcp
        unconfirmed := fun _ => ⟨hen rfl, hdb⟩
        low_le := Nat.zero_le _
        symbol := fun _ hle => absurd hct (Nat.not_le_of_lt (Nat.lt_succ_of_le hle))
        expiry := by simp }
    · exact { h with
        window := fun hdb' => absurd hdb hdb'.ne'
        unconfirmed := fun ⟨hs, hlt⟩ => absurd (hhigh rfl hs) (Nat.not_le_of_lt hlt)
        expiry := by simp }

/-- The fire restores item 7 of R35; it starts the one-shot in no session that waits for its release-confirm, since
notification was enabled (R74). -/
theorem Working.kept_fired (h : Working e l n) : Kept (fired n) := by
  unfold fired
  split
  next hfire =>
    have hen : n.edgeEn = true := Bool.and_elim_left hfire
    have hfired : Working false l
        { n with edgeEn := false, edgePend := false, dbCnt := n.cfg.debounceCycles } :=
      { h with
        oneshot := le_rfl
        window := fun _ => rfl
        unconfirmed := fun hs => nomatch hen.symm.trans (h.unconfirmed hs).1
        expiry := by simp }
    exact hfired.kept (by simp)
  next hfire => exact h.kept (by simpa using hfire)

/-! ### The clock cycle -/

/-- The reset state of every legal build is kept (R128). -/
theorem kept_resetRegisters (hl : s.cfg.Legal) : Kept (resetRegisters s) := by
  obtain ⟨-, -, -, -, hcp, -⟩ := hl
  have h1 : (resetRegisters s).Inv1 := ⟨⟨fun _ => rfl, fun _ => rfl⟩, nofun⟩
  have h4 : (resetRegisters s).Inv4 := Nat.zero_lt_of_lt hcp
  obtain ⟨-, -, h3, -, h5, h6, h7, h8, -⟩ : State.reset.Inv := by decide
  exact ⟨⟨h1, Nat.zero_le _, h3, h4, h5, h6, h7, h8, nofun⟩, Nat.zero_le _, nofun, rfl⟩

/-- One clock cycle of a legal build keeps the invariants. -/
theorem clock_kept (hl : s.cfg.Legal) (h : Kept s) (ht : clock v s = .next t) : Kept t := by
  rcases clock_next ht with ⟨-, rfl⟩ | ⟨-, n, hn, rfl⟩
  · exact kept_resetRegisters hl
  · exact (tickPart_working hl h hn).after_expiry.kept_fired

end

/-! ### The step and the run -/

/-- Settles O52: a next state of the step is one of the clock cycle, reset or the five phases. -/
theorem cyclesKeepInvariants : Obligations.CyclesKeepInvariants := by
  intro s t v hv hk h
  have hl := legal_of_step h
  exact clock_kept (s := { s with stim := remaining s }) hl hk (step_next_of_input hl hv h)

/-- Settles O53: the clean launch is a reset state, and the induction over the run keeps `Kept`. -/
theorem invariantsHoldInEveryRun : Obligations.InvariantsHoldInEveryRun := by
  rintro vs s ⟨hl, hreset⟩
  have hk : Kept s := hreset ▸ kept_resetRegisters (s := s) hl
  obtain ⟨t, ht, hinv, -⟩ := feed_induction (Q := fun _ => True) (P := fun _ s => Kept s)
    (fun _ _ _ h => h) (fun _ _ _ _ hl _ h ht => clock_kept hl h ht) vs 0 s hl (fun _ _ => trivial) hk
  exact ⟨t, ht, hinv⟩

end Sys2Proof.Machine
end

section
/-! Format EVT bit by bit (R52): the packed word, and the word a state derives. -/

namespace Sys2Proof

@[simp] theorem Level.ofBit_bit (l : Level) : Level.ofBit l.bit = l := by cases l <;> rfl

@[simp] theorem Level.bit_ofBit (b : Bool) : (Level.ofBit b).bit = b := by cases b <;> rfl

theorem Level.ofBit_eq {b : Bool} {l : Level} : Level.ofBit b = l ↔ b = l.bit := by
  cases b <;> cases l <;> decide

section

variable (rst fall exp tick ack : Bool) (lvl : Level)

/-- The bits of a packed event word, `LVL` first; those past `RST` are 0. -/
theorem getLsbD_evtWord (k : Nat) : (evtWord rst fall exp tick ack lvl).getLsbD k =
    [lvl.bit, ack, tick, exp, fall, rst].getD k false := by
  rcases k with _ | _ | _ | _ | _ | _ | k <;> simp only [evtWord, BitVec.getLsbD_append] <;> simp

@[simp] theorem evtLevel_evtWord : evtLevel (evtWord rst fall exp tick ack lvl) = lvl := by
  rw [evtLevel, getLsbD_evtWord]
  exact lvl.ofBit_bit

@[simp] theorem evtAck_evtWord : evtAck (evtWord rst fall exp tick ack lvl) = ack := getLsbD_evtWord ..

@[simp] theorem evtTick_evtWord : evtTick (evtWord rst fall exp tick ack lvl) = tick := getLsbD_evtWord ..

@[simp] theorem evtExp_evtWord : evtExp (evtWord rst fall exp tick ack lvl) = exp := getLsbD_evtWord ..

@[simp] theorem evtFall_evtWord : evtFall (evtWord rst fall exp tick ack lvl) = fall := getLsbD_evtWord ..

@[simp] theorem evtRst_evtWord : evtRst (evtWord rst fall exp tick ack lvl) = rst := getLsbD_evtWord ..

end

/-- A word whose reserved bits are 0 is packed from its own event bits. -/
theorem evtWord_bits {w : EvtWord} (h6 : w.getLsbD 6 = false) (h7 : w.getLsbD 7 = false) :
    evtWord (evtRst w) (evtFall w) (evtExp w) (evtTick w) (evtAck w) (evtLevel w) = w := by
  have hlvl : (evtLevel w).bit = w.getLsbD 0 := Level.bit_ofBit _
  apply BitVec.eq_of_getLsbD_eq
  intro k hk
  rw [getLsbD_evtWord, hlvl]
  obtain hlow | rfl | rfl : k < 6 ∨ k = 6 ∨ k = 7 := by omega
  · interval_cases k <;> rfl
  · exact h6.symm
  · exact h7.symm

namespace Machine

theorem tick_eq_true {s : State} : s.tick = true ↔ s.sess = true ∧ s.tkCnt = 1 := by
  simp [State.tick]

theorem exp_eq_true {s : State} : s.exp = true ↔ s.dbCnt = 1 := by
  simp [State.exp]

theorem fall_eq_true {s : State} {lvl : Level} :
    s.fall lvl = true ↔ s.lineQ = .released ∧ lvl = .pressed := by
  simp [State.fall]

/-- Settles O5: each bit of the word packed by `State.evt`. -/
theorem eventWordBits : Obligations.EventWordBits := by
  intro s v
  simp only [State.evt, getLsbD_evtWord]
  refine ⟨Level.bit_ofBit _, rfl, tick_eq_true, exp_eq_true, ?_, rfl, rfl, rfl⟩
  exact fall_eq_true.trans (and_congr_right' Level.ofBit_eq)

end Machine

end Sys2Proof
end

section
/-! The decoder against the opcode table (R56, R57), and the encoder against the decoder. -/

namespace Sys2Proof

open Sys2Proof.Machine Sys2Proof.Safety

/-! ### The outcomes of the decoder (R57) -/

theorem decode_eq_reservedBits {w : EvtWord} :
    decode w = .error .reservedBits ↔ w.getLsbD 6 = true ∨ w.getLsbD 7 = true := by
  unfold decode
  split_ifs with hr hf
  · exact iff_of_true rfl (by simpa using hr)
  · exact iff_of_false nofun (by simpa using hr)
  · exact iff_of_false nofun (by simpa using hr)

theorem decode_eq_fallWhileReleased {w : EvtWord} :
    decode w = .error .fallWhileReleased ↔
      w.getLsbD 6 = false ∧ w.getLsbD 7 = false ∧ evtFall w = true ∧ evtLevel w = .released := by
  unfold decode
  split_ifs with hr hf
  · exact iff_of_false nofun (by grind)
  · simp_all
  · simp_all

theorem decode_eq_ok {w : EvtWord} {ops : List Instr} :
    decode w = .ok ops ↔ w.getLsbD 6 = false ∧ w.getLsbD 7 = false ∧
      ¬ (evtFall w = true ∧ evtLevel w = .released) ∧ rowsOf w = ops := by
  unfold decode
  split_ifs with hr hf
  · exact iff_of_false nofun (by grind)
  · simp_all
  · simp_all

/-- Settles O3: when each of the decoder's two rejections is answered. -/
theorem decodeRejectsByName : Obligations.DecodeRejectsByName :=
  fun _ => ⟨decode_eq_reservedBits, decode_eq_fallWhileReleased⟩

/-! ### The rows that accept a word (R56) -/

theorem mem_opsIf {i : Instr} {b : Bool} {l : List Instr} :
    i ∈ opsIf b l ↔ b = true ∧ i ∈ l := by
  cases b <;> simp [opsIf]

theorem mem_tickRows {i : Instr} {lvl : Level} :
    i ∈ tickRows lvl ↔
      i = .tickPress ∧ lvl = .pressed ∨
      i ∈ [.tickRelease, .confirm, .endFull, .endPause] ∧ lvl = .released := by
  cases lvl <;> simp [tickRows]

theorem eq_expOp {i : Instr} {lvl : Level} :
    i = expOp lvl ↔ i = .expirePress ∧ lvl = .pressed ∨ i = .expireBounce ∧ lvl = .released := by
  cases lvl <;> simp [expOp]

/-- R56: a row accepts a word without reserved bits exactly when the row's EVT condition holds in it. -/
theorem mem_rowsOf_evtWord {i : Instr} {rst fall exp tick ack : Bool} {lvl : Level} :
    i ∈ rowsOf (evtWord rst fall exp tick ack lvl) ↔
      evtCondition (evtWord rst fall exp tick ack lvl) i = true := by
  cases rst with
  | true =>
    rw [rowsOf_reset]
    cases i <;> simp [evtCondition]
  | false =>
    rw [rowsOf_evtWord]
    cases i with
    | edgeLatch l => simp [evtCondition, mem_opsIf, mem_tickRows, eq_expOp, eq_comm (a := l)]
    | lineSample l => simp [evtCondition, mem_opsIf, mem_tickRows, eq_expOp, eq_comm (a := l)]
    | _ => simp [evtCondition, mem_opsIf, mem_tickRows, eq_expOp]

theorem mem_rowsOf {i : Instr} {w : EvtWord} (h6 : w.getLsbD 6 = false) (h7 : w.getLsbD 7 = false) :
    i ∈ rowsOf w ↔ evtCondition w i = true := by
  rw [← evtWord_bits h6 h7]
  exact mem_rowsOf_evtWord

/-- Settles O1: an accepted word has no reserved bit, and its list is that of the rows accepting it. -/
theorem decodeListsEvtConditions : Obligations.DecodeListsEvtConditions := by
  intro w ops h i
  obtain ⟨h6, h7, -, rfl⟩ := decode_eq_ok.1 h
  exact mem_rowsOf h6 h7

/-- Settles O4: each written word decodes, and its leading operation is in the list. -/
theorem writtenWordsDecode : Obligations.WrittenWordsDecode := by
  refine ⟨?_, ?_, ?_, ?_, ?_, ?_, ?_, ?_⟩ <;> decide

/-! ### The encoder -/

open Laws in
/-- The word of every operation meets its own EVT condition. -/
theorem encodesOwnCondition : ∀ i : Instr, EncodesOwnCondition.Statement i
  | .reset => EncodesOwnCondition.reset
  | .consume => EncodesOwnCondition.consume
  | .ackIdle => EncodesOwnCondition.ackIdle
  | .tickAdv => EncodesOwnCondition.tickAdv
  | .oneshotAdv => EncodesOwnCondition.oneshotAdv
  | .edgeLatch lvl => EncodesOwnCondition.edgeLatch lvl
  | .lineSample lvl => EncodesOwnCondition.lineSample lvl
  | .tickPress => EncodesOwnCondition.tickPress
  | .tickRelease => EncodesOwnCondition.tickRelease
  | .confirm => EncodesOwnCondition.confirm
  | .endFull => EncodesOwnCondition.endFull
  | .endPause => EncodesOwnCondition.endPause
  | .expirePress => EncodesOwnCondition.expirePress
  | .expireBounce => EncodesOwnCondition.expireBounce
  | .fire => EncodesOwnCondition.fire
  | .romRead => EncodesOwnCondition.romRead

/-- Only EDGE_LATCH's word sets `FALL`, and a well-formed one has the line pressed. -/
theorem encode_fall_pressed {i : Instr} (h : i.wellFormed = true) :
    ¬ (evtFall (encode i) = true ∧ evtLevel (encode i) = .released) := by
  cases i with
  | edgeLatch l =>
    cases l with
    | pressed => decide
    | released => cases h
  | lineSample l => cases l <;> decide
  | _ => decide

/-- Two words agree on the bits of a mask exactly when their difference vanishes on it. -/
theorem xor_and_eq_zero {n : Nat} {w e m : BitVec n} :
    (w ^^^ e) &&& m = 0#n ↔ ∀ k : Fin n, m.getLsbD k = true → w.getLsbD k = e.getLsbD k := by
  constructor
  · intro h k hm
    have hk := congrArg (·.getLsbD k) h
    simp only [BitVec.getLsbD_and, BitVec.getLsbD_xor, hm, BitVec.getLsbD_zero, Bool.and_true] at hk
    exact bne_eq_false_iff_eq.1 hk
  · intro h
    apply BitVec.eq_of_getLsbD_eq
    intro k hk
    have := h ⟨k, hk⟩
    cases hm : m.getLsbD k <;> simp_all

/-- The masks of R56: a word without reserved bits meets an operation's EVT condition exactly when it agrees with
the operation's own word on the bits its row fixes. -/
theorem evtCondition_iff_agrees {w : EvtWord} (h6 : w[6] = false) (h7 : w[7] = false) (i : Instr) :
    evtCondition w i = true ↔ (w ^^^ encode i) &&& fixedBits i = 0#8 := by
  -- Reversed, the bits stand as `evtCondition` tests them: `RST` before the event bits, and `LVL` last.
  rw [xor_and_eq_zero, Fin.rev_surjective.forall]
  simp only [Fin.forall_fin_succ]
  cases i <;>
    simp [evtCondition, encode, fixedBits, evtRst, evtFall, evtExp, evtTick, evtAck, evtLevel, Level.ofBit_eq,
      Level.bit, h6, h7, and_assoc]

/-- Settles O2: an operation's own word is accepted and meets its EVT condition, so the rows list it; in any accepted
word that condition is agreement on the fixed bits. -/
theorem decodeOfEncode : Obligations.DecodeOfEncode := by
  intro i hi
  constructor
  · obtain ⟨h6, h7, hown⟩ := encodesOwnCondition i
    exact ⟨_, decode_eq_ok.2 ⟨h6, h7, encode_fall_pressed hi, rfl⟩, (mem_rowsOf h6 h7).2 hown⟩
  · intro w ops h
    obtain ⟨h6, h7, -, rfl⟩ := decode_eq_ok.1 h
    exact (mem_rowsOf h6 h7).trans (evtCondition_iff_agrees h6 h7 i)

end Sys2Proof
end

section
/-! Format OUT bit by bit (R51). -/

namespace Sys2Proof.Machine

open Sys2Proof

/-- The places of the one-bit ports. -/
theorem outWord_bits (s : State) :
    s.outWord.getLsbD 0 = s.ready ∧ s.outWord.getLsbD 1 = s.busy ∧ s.outWord.getLsbD 2 = s.outValid ∧
    s.outWord.getLsbD 18 = s.ovr ∧ s.outWord.getLsbD 19 = s.indPress ∧ s.outWord.getLsbD 20 = s.indLong := by
  simp only [State.outWord, BitVec.getLsbD_append]
  simp

/-- The places of the ports of several bits: the ports below a field are cut off, then those above it. -/
theorem outWord_fields (s : State) :
    s.outWord.extractLsb' 3 8 = s.outChar ∧ s.outWord.extractLsb' 11 3 = s.snapLen ∧
    s.outWord.extractLsb' 14 4 = s.snapSym := by
  simp (disch := decide) only [State.outWord, BitVec.extractLsb'_append_eq_of_le,
    BitVec.extractLsb'_append_eq_of_add_le, Nat.reduceSub, BitVec.extractLsb'_eq_self, and_self]

theorem indPress_eq_true {s : State} : s.indPress = true ↔ s.lineQ = .pressed := by
  simp [State.indPress]

theorem indLong_eq_true {s : State} : s.indLong = true ↔ s.lineQ = .pressed ∧ s.cfg.longT < s.low := by
  simp [State.indLong]

/-- Settles O6: the places of the ports, and what the two indicators show. -/
theorem outputPorts : Obligations.OutputPorts := by
  intro s
  obtain ⟨hready, hbusy, hvalid, hovr, hpress, hlong⟩ := outWord_bits s
  obtain ⟨hchar, hlen, hsym⟩ := outWord_fields s
  rw [hpress, hlong]
  exact ⟨hready, hbusy, hvalid, hchar, hlen, hsym, hovr, indPress_eq_true, indLong_eq_true⟩

end Sys2Proof.Machine
end

section
/-! The step on each kind of stimulus: a cycle's decoded operations (R56, R62), a harness's event word (R57) and a
handler-level call (R61). -/

namespace Sys2Proof.Machine

open Sys2Proof

/-- A step on a queued event word is its check (R57). -/
theorem step_event {s : State} {w : EvtWord} {rest : List Stim} (hl : s.cfg.Legal)
    (h : s.stim = .event w :: rest) : step s = clockEvent w { s with stim := rest } := by
  unfold step respond
  rw [if_pos hl, h]

/-- A step on a queued handler-level call is that call (R61). -/
theorem step_call {s : State} {c : Call} {rest : List Stim} (hl : s.cfg.Legal)
    (h : s.stim = .call c :: rest) : step s = handlerCall c { s with stim := rest } := by
  unfold step respond
  rw [if_pos hl, h]

/-! ### Clock cycles -/

/-- Settles O7: the derived word decodes to its rows, and the step is the cycle on them. -/
theorem stepRunsSelectedOperations : Obligations.StepRunsSelectedOperations := by
  intro s v rest hl h hr
  refine ⟨⟨_, decode_evt s v, rfl⟩, ?_⟩
  rw [step_input hl h, clock, cycle, if_neg (ne_true_of_eq_false hr), andThen_assoc]
  rfl

/-! ### Event words -/

/-- The three outcomes of an event word (R57, R118). A word that the state derives is one that decodes. -/
theorem clockEvent_eq (w : EvtWord) (s : State) :
    clockEvent w s =
      if w.getLsbD 6 = true ∨ w.getLsbD 7 = true then .refused .reservedEvtBits
      else if w = s.evt (evtInput w) then clock (evtInput w) s
      else .refused .inconsistentEvt := by
  unfold clockEvent
  by_cases hres : w.getLsbD 6 = true ∨ w.getLsbD 7 = true
  · rw [if_pos hres, decode_eq_reservedBits.2 hres]
  rw [if_neg hres]
  by_cases hw : w = s.evt (evtInput w)
  · have hok : decode w = .ok (rowsOf w) := by
      rw [hw]
      exact decode_evt ..
    rw [if_pos hw, hok]
    exact if_pos hw.symm
  · rw [if_neg hw]
    split
    next hd => exact absurd (decode_eq_reservedBits.1 hd) hres
    next => rfl
    next => exact if_neg (Ne.symm hw)

/-- Settles O14: an event word's three outcomes, the second being the step on the input the word names. -/
theorem harnessEventWords : Obligations.HarnessEventWords := by
  intro s w rest hl h
  rw [step_event hl h, clockEvent_eq, step_input (s := { s with stim := .input (evtInput w) :: rest }) hl rfl]
  rfl

/-! ### Handler-level calls -/

/-- Only an Append can overfill, and only where no symbol is left of the four (R99). -/
theorem overfills_eq_true {c : Call} {s : State} :
    overfills c s = true ↔ (∃ b, c = .append b) ∧ 4 ≤ s.bufLen.toNat := by
  cases c <;> simp [overfills]

/-- R35 item 5 leaves room in the working buffer. -/
theorem not_overfills_of_inv {s : State} (c : Call) (h : s.Inv) : ¬ overfills c s = true := by
  obtain ⟨-, -, -, -, ⟨hlen, -⟩, -⟩ := h
  intro ho
  obtain ⟨-, hfull⟩ := overfills_eq_true.1 ho
  omega

theorem handlerCall_of_inv {s : State} (c : Call) (h : s.Inv) : handlerCall c s = runCall c s := by
  rw [handlerCall, if_neg (not_overfills_of_inv c h), if_pos h]

theorem handlerCall_of_not_inv {s : State} (c : Call) (h : ¬ s.Inv) :
    handlerCall c s =
      if overfills c s = true then .refused .appendToFullBuffer else .refused .invariantBroken := by
  rw [handlerCall, if_neg h]

/-- Settles O15: R35 leaves room for an Append, so a call on a state that keeps it runs; on any other state the
name of the refusal is decided by `overfills`. -/
theorem handlerCallsChecked : Obligations.HandlerCallsChecked := by
  intro s c rest hl h
  rw [step_call hl h]
  refine ⟨handlerCall_of_inv (s := { s with stim := rest }) c, fun hi hc => ?_, fun hi b hb => ?_⟩
  · rw [handlerCall_of_not_inv (s := { s with stim := rest }) c hi, if_neg]
    intro ho
    obtain ⟨⟨b, hb⟩, -⟩ := overfills_eq_true.1 ho
    exact hc b hb
  · rw [handlerCall_of_not_inv (s := { s with stim := rest }) c hi]
    simp only [overfills_eq_true, hb, Call.append.injEq, exists_eq', true_and]

end Sys2Proof.Machine
end

section
/-! The cycle step (40_cycle_step.md): totality (R67, R113), the pseudocode of R62, the reset cycle (R63) and the
quiet cycle (R69), the coincidences with an expiry (R68), and what a cycle reads (R67). -/

namespace Sys2Proof.Machine

open Sys2Proof Sys2Proof.Safety

/-! ### Totality (R67, R113) -/

/-- A sequence of two completing parts completes. -/
theorem andThen_total {o : Result} {f : State → Result} (ho : ∃ n, o = .next n)
    (hf : ∀ n, ∃ t, f n = .next t) : ∃ t, andThen o f = .next t := by
  obtain ⟨n, rfl⟩ := ho
  exact hf n

theorem execConfirm_total (s : State) : ∃ t, execConfirm s = .next t := by
  rw [execConfirm_cases]
  split <;> exact ⟨_, rfl⟩

theorem pauseCheck_total (s : State) : ∃ t, pauseCheck s = .next t := by
  unfold pauseCheck
  split <;> exact ⟨_, rfl⟩

/-- The checks of a released tick complete for any thresholds, legal or not (R95). -/
theorem classifierChecks_total (s : State) : ∃ t, classifierChecks s = .next t := by
  unfold classifierChecks
  split
  · refine andThen_total (execConfirm_total s) fun n => ?_
    split
    · exact ⟨n, rfl⟩
    · exact pauseCheck_total n
  · exact pauseCheck_total s

/-- Settles O12: every operation but the classifier's answers its next state outright. -/
theorem operationsAlwaysComplete : Obligations.OperationsAlwaysComplete := by
  intro i s
  cases i with
  | confirm => exact execConfirm_total s
  | tickRelease => exact classifierChecks_total _
  | tickAdv =>
    simp only [exec, execTickAdv]
    split <;> exact ⟨_, rfl⟩
  | oneshotAdv =>
    simp only [exec, execOneshotAdv]
    split <;> exact ⟨_, rfl⟩
  | edgeLatch lvl =>
    simp only [exec, execEdgeLatch]
    split <;> exact ⟨_, rfl⟩
  | _ => exact ⟨_, rfl⟩

/-- Settles O11: the step is a clock cycle with the queued vector or the free draw, and no cycle stops. -/
theorem clockCycleIsTotal : Obligations.ClockCycleIsTotal := by
  intro s hl
  constructor
  · intro v rest h
    rw [step_input hl h]
    exact clock_total v hl
  · intro h
    rw [step_free hl h]
    exact clock_total _ hl

/-! ### The pseudocode of R62 -/

@[simp] theorem andThen_next_right (o : Result) : andThen o .next = o := by
  cases o <;> rfl

theorem runOps_singleton (i : Instr) : runOps [i] = exec i :=
  funext fun n => andThen_next_right (exec i n)

/-- An operation listed under a condition is a line of the pseudocode. -/
theorem runOps_opsIf (b : Bool) (i : Instr) : runOps (opsIf b [i]) = perform b i := by
  cases b
  · rfl
  · exact runOps_singleton i

/-- ACK_IDLE has no effect (R104), so an acknowledge performs CONSUME where a code is ready, and else nothing. -/
theorem perform_ack (ack ready : Bool) :
    perform ack (if ready then .consume else .ackIdle) = perform (ack && ready) .consume := by
  cases ack <;> cases ready <;> rfl

/-- An operation chosen by the sampled level is two lines of the pseudocode, of which one at most applies. -/
theorem perform_byLevel (op : Level → Instr) (b : Bool) (lvl : Level) :
    perform b (op lvl) = fun n =>
      andThen (perform (b && lvl == .pressed) (op .pressed) n) (perform (b && lvl == .released) (op .released)) := by
  funext n
  cases b
  · rfl
  · cases lvl
    · exact (andThen_next_right (exec (op .pressed) n)).symm
    · rfl

/-- Settles O8: the selected operations in phase order, each turned into its line of the pseudocode. -/
theorem stepFollowsPseudocode : Obligations.StepFollowsPseudocode := by
  intro s v rest hl h hr
  rw [step_input hl h, clock, cycle, if_neg (ne_true_of_eq_false hr), cycleOps_eq hr, ← List.append_assoc,
    earlyOps]
  simp only [runOps_append, runOps_opsIf, runOps_singleton, perform_ack]
  rw [perform_byLevel tickOp, perform_byLevel expOp]
  simp only [andThen_assoc]
  rfl

/-! ### The reset cycle (R63) and the quiet cycle (R69) -/

theorem clock_reset {s : State} {v : InWord} (hr : inRst v = true) :
    clock v s = .next (countCycle (resetRegisters s)) := by
  rw [clock, cycle_reset hr, andThen_next]

/-- A clock cycle without reset: phases 0 to 3, then expiry, fire and count. -/
theorem clock_eq {s : State} {v : InWord} (hr : inRst v = false) :
    clock v s = andThen (tickPart v s) fun n => .next (late s.exp (inLevel v) n) := by
  rw [clock, cycle_eq hr, andThen_assoc]
  rfl

/-- Settles O9: RESET by itself replaces the cycle. -/
theorem resetCycleOverridesInputs : Obligations.ResetCycleOverridesInputs := by
  intro s v rest hl h hr
  rw [step_input hl h, clock_reset hr]
  rfl

/-- A tick phase other than 1 counts down (R4, R81). -/
theorem tkNext_of_ne_one {s : State} (h : s.tkCnt ≠ 1) : s.tkNext = s.tkCnt - 1 :=
  if_neg h

theorem fired_of_not {n : State} (h : ¬ (n.edgeEn = true ∧ n.edgePend = true)) : fired n = n :=
  if_neg (by simpa using h)

/-- Without tick, expiry and fire, a cycle leaves what its early phases leave. -/
theorem clock_of_quiet {s : State} {v : InWord} (hr : inRst v = false) (ht : s.tick = false) (he : s.exp = false)
    (hf : ¬ (s.edgeEn = true ∧ (s.edgePend || s.fall (inLevel v)) = true)) :
    clock v s = .next (countCycle (early v s)) := by
  have hfired : fired (early v s) = early v s := fired_of_not hf
  rw [clock_eq hr, tickPart, ht, he, if_neg Bool.false_ne_true, andThen_next]
  exact congrArg (Host.Outcome.next ∘ countCycle) hfired

/-- The early phases of a cycle without an effective acknowledge or a tick: the timers count down, the line is
sampled, a falling edge is latched. -/
theorem early_of_quiet {s : State} {v : InWord} (hack : (inAck v && s.ready) = false)
    (ht : s.sess = true → s.tkCnt ≠ 1) :
    early v s =
      { s with
        dbCnt := s.dbCnt - 1
        tkCnt := if s.sess = true then s.tkCnt - 1 else s.tkCnt
        lineQ := inLevel v
        edgePend := s.edgePend || s.fall (inLevel v)
        outValid := false
        romData := none } := by
  have hready : (s.ready && !inAck v) = s.ready := by
    revert hack
    cases s.ready <;> cases inAck v <;> decide
  have htk : (if s.sess = true then s.tkNext else s.tkCnt) = if s.sess = true then s.tkCnt - 1 else s.tkCnt :=
    ite_congr rfl (fun hs => tkNext_of_ne_one (ht hs)) fun _ => rfl
  rw [early, hack, hready, htk]
  rfl

/-- Settles O10: no tick, expiry or fire, so the early phases are all there is. -/
theorem quietCycle : Obligations.QuietCycle := by
  intro s v rest hl h hr ht hd hack hf
  have htick : s.tick = false := Bool.eq_false_iff.2 (mt tick_eq_true.1 ht)
  have hexp : s.exp = false := Bool.eq_false_iff.2 (mt exp_eq_true.1 hd)
  have hack' : (inAck v && s.ready) = false := by simpa using hack
  have hfire : ¬ (s.edgeEn = true ∧ (s.edgePend || s.fall (inLevel v)) = true) := by
    rwa [Bool.or_eq_true, fall_eq_true]
  rw [step_input hl h, clock_of_quiet (s := { s with stim := rest }) hr htick hexp hfire,
    early_of_quiet (s := { s with stim := rest }) hack' fun hs h1 => ht ⟨hs, h1⟩]
  rfl

/-! ### The coincidences with an expiry (R68) -/

section

variable {s n : State} {v : InWord}

/-- The tick does not touch the one-shot or the pending edge. -/
theorem TickCase.oneshot (h : TickCase s v n) :
    n.cfg = s.cfg ∧ n.dbCnt = s.dbCnt - 1 ∧ n.edgePend = (s.edgePend || s.fall (inLevel v)) := by
  rcases h with ⟨-, -, -, rfl⟩ | ⟨-, -, -, -, rfl⟩ | ⟨-, -, -, rfl⟩ | ⟨-, -, -, rfl⟩ | ⟨-, -, rfl⟩ |
    ⟨-, -, -, -, rfl⟩ <;> exact ⟨rfl, rfl, rfl⟩

/-- Only a released tick changes the notification enable. -/
theorem TickCase.edgeEn_of_pressed (h : TickCase s v n) (hv : inLevel v = .pressed) : n.edgeEn = s.edgeEn := by
  have hnot : inLevel v ≠ .released := by simp [hv]
  rcases h with ⟨-, -, -, rfl⟩ | ⟨-, -, -, -, rfl⟩ | ⟨⟨-, hr, -⟩, -⟩ | ⟨⟨-, hr, -⟩, -⟩ | ⟨⟨-, hr, -⟩, -⟩ |
    ⟨-, hr, -⟩
  · rfl
  · rfl
  all_goals exact absurd hr hnot

end

/-- A bounce expiry enables notification and clears the pending edge, so nothing fires (R78). -/
theorem late_bounce_edge (n : State) :
    (late true .released n).edgeEn = true ∧ (late true .released n).edgePend = false ∧
    (late true .released n).dbCnt = n.dbCnt := by
  simp [late_edge]

/-- A press expiry opens a session at zero phase (R77). -/
theorem late_press_session (n : State) :
    (late true .pressed n).sess = true ∧ (late true .pressed n).tkCnt = n.cfg.tickCycles ∧
    (late true .pressed n).low = 0 ∧ (late true .pressed n).high = 0 := by
  simp [late_session]

/-- A press expiry with notification off leaves the pending edge, and nothing fires (R68). -/
theorem late_press_edge {n : State} (h : n.edgeEn = false) :
    (late true .pressed n).edgeEn = false ∧ (late true .pressed n).edgePend = n.edgePend ∧
    (late true .pressed n).dbCnt = n.dbCnt := by
  simp [late_edge, h]

/-- Settles O48: what expiry and fire leave of the working copy, in which the one-shot has run down. -/
theorem expiryCoincidences : Obligations.ExpiryCoincidences := by
  intro s t v hv hr h hd
  obtain ⟨-, n, hn, rfl⟩ := step_case hv hr h
  obtain ⟨hcfg, hdb, hpend⟩ := TickCase.oneshot hn
  have hdb0 : n.dbCnt = 0 := hdb.trans (congrArg (· - 1) hd)
  rw [exp_eq_true.2 hd]
  refine ⟨fun hl => ?_, fun hl => ?_, fun hl hen => ?_⟩
  · rw [hl]
    obtain ⟨h1, h2, h3⟩ := late_bounce_edge n
    exact ⟨h1, h2, h3.trans hdb0⟩
  · rw [hl]
    obtain ⟨h1, h2, h3, h4⟩ := late_press_session n
    exact ⟨h1, h3, h4, h2.trans (congrArg Params.tickCycles hcfg)⟩
  · obtain ⟨h1, h2, h3⟩ := late_press_edge ((TickCase.edgeEn_of_pressed hn hl).trans hen)
    rw [hl, h2, hpend, Bool.or_eq_true, fall_eq_true, and_iff_left hl]
    exact ⟨h1, h3.trans hdb0, Iff.rfl⟩

/-! ### The step as a function (R67) -/

/-- A clock cycle does not read the queue, the cycle count or the ROM's data lines. -/
theorem clock_reads_registers {s t : State} {v : InWord} (hl : s.cfg.Legal) (h : clock v s = .next t)
    (queue : List Stim) (count : Nat) (lines : Option Byte) :
    clock v { s with stim := queue, cycle := count, romData := lines } =
      .next { t with stim := queue, cycle := count + 1 } := by
  rcases clock_next h with ⟨hr, rfl⟩ | ⟨hr, n, hn, rfl⟩
  · exact clock_reset hr
  · rw [clock_eq hr, tickPart_reads_registers hl hn]
    exact congrArg Host.Outcome.next (late_reads_registers s.exp (inLevel v) n queue count)

/-- Settles O59: both steps are the same clock cycle, on states that differ only in what it does not read. -/
theorem cycleIsFunctionOfRegistersAndInput : Obligations.CycleIsFunctionOfRegistersAndInput := by
  intro s v rest queue count lines hl h
  obtain ⟨t, ht⟩ := clock_total (s := { s with stim := rest }) v hl
  refine ⟨t, (step_input hl h).trans ht, ?_⟩
  rw [step_input (s := { s with stim := .input v :: queue, cycle := count, romData := lines }) hl rfl]
  exact clock_reads_registers (s := { s with stim := rest }) hl ht queue count lines

end Sys2Proof.Machine
end

section
/-! Which operations of debounce_fsm a cycle performs and what each of them does (R71 to R78), and what clears and
sets `edge_en` (R73). -/

namespace Sys2Proof.Machine

open Sys2Proof Sys2Proof.Safety

/-! ### The operations (R71 to R78) -/

/-- R56: a cycle performs, up to phase 4, the operations whose EVT condition and state condition both hold. -/
theorem mem_cycleOps_iff {i : Instr} {s : State} {v : InWord} :
    i ∈ cycleOps s v ↔ evtCondition (s.evt v) i = true ∧ selects s i = true := by
  rw [cycleOps, List.mem_filter]
  exact and_congr_left' mem_rowsOf_evtWord

/-- Settles O16: an edge that is not falling leaves `edge_pend` as it was, and the row fixes the level. -/
theorem edgeLatchEffect : Obligations.EdgeLatchEffect := by
  refine ⟨fun s lvl => ?_, fun s v lvl => ?_⟩
  · show execEdgeLatch lvl s = .next { s with edgePend := s.edgePend || s.fall lvl }
    rw [execEdgeLatch]
    split
    next hf => rw [hf, Bool.or_true]
    next hf => rw [Bool.eq_false_iff.2 hf, Bool.or_false]
  · rw [mem_cycleOps_iff]
    simp +contextual [evtCondition, selects, State.evt, fall_eq_true, and_assoc, eq_comm (a := lvl)]

/-- Settles O17: the row accepts every cycle without reset, and its operand is the sampled level. -/
theorem lineSampleEffect : Obligations.LineSampleEffect := by
  refine ⟨fun s lvl => rfl, fun s v lvl => ?_⟩
  rw [mem_cycleOps_iff]
  simp [evtCondition, selects, State.evt, eq_comm (a := lvl)]

/-- Settles O18: phase 5 is the only place of FIRE, since no cycle selects it among its earlier operations. -/
theorem fireEffect : Obligations.FireEffect := by
  refine ⟨fun s => rfl, fun s => rfl, fun s v => ?_⟩
  rw [mem_cycleOps_iff]
  exact fun ⟨_, h⟩ => nomatch h

/-- Settles O19: counting down from 0 leaves 0 (R4). -/
theorem oneshotAdvEffect : Obligations.OneshotAdvEffect := by
  refine ⟨fun s => ?_, fun s v => ?_⟩
  · show execOneshotAdv s = _
    rw [execOneshotAdv]
    split
    next => rfl
    next hd =>
      have hd0 : s.dbCnt - 1 = s.dbCnt := by omega
      rw [hd0]
  · rw [mem_cycleOps_iff]
    simp [evtCondition, selects, State.evt]

/-- Settles O20: closing an open session first leaves nothing that opening the new one does not write. -/
theorem expirePressEffect : Obligations.ExpirePressEffect := by
  refine ⟨execExpirePress_eq, fun s v => ?_⟩
  rw [mem_cycleOps_iff]
  simp [evtCondition, selects, State.evt, exp_eq_true, and_assoc]

/-- Settles O21: the row asks for an expiry with the line released. -/
theorem expireBounceEffect : Obligations.ExpireBounceEffect := by
  refine ⟨fun s => rfl, fun s v => ?_⟩
  rw [mem_cycleOps_iff]
  simp [evtCondition, selects, State.evt, exp_eq_true, and_assoc]

/-! ### What clears and sets `edge_en` (R73) -/

section

variable {s n : State} {v : InWord}

/-- Within phases 0 to 3 only a release-confirm touches notification, and it enables it (R91). -/
theorem TickCase.edgeEn_eq_true (h : TickCase s v n) :
    n.edgeEn = true ↔ s.edgeEn = true ∨ ConfirmTick s v := by
  rcases h with ⟨-, hc, -, rfl⟩ | ⟨-, -, hc, -, rfl⟩ | ⟨hc, -, -, rfl⟩ | ⟨hc, -, -, rfl⟩ | ⟨-, hc, rfl⟩ |
    ⟨-, -, hc, -, rfl⟩
  case inr.inr.inl | inr.inr.inr.inl => exact iff_of_true rfl (.inr hc)
  all_goals exact (or_iff_left hc).symm

end

/-- After the tick notification is cleared only by a fire (R74). -/
theorem late_fired_of_edgeEn_cleared {e : Bool} {l : Level} {n : State} (hn : n.edgeEn = true)
    (ht : (late e l n).edgeEn = false) :
    (late e l n).dbCnt = n.cfg.debounceCycles ∧ (late e l n).edgePend = false := by
  obtain ⟨hen, hpend, hdb⟩ := late_edge e l n
  have hfire : (n.edgePend && !(e && l == .released)) = true := by
    rwa [hen, hn, Bool.true_or, Bool.true_and, Bool.not_eq_false'] at ht
  rw [hdb, hpend, hn, hfire]
  exact ⟨rfl, rfl⟩

/-- After the tick notification is set only by a bounce expiry (R78). -/
theorem late_edgeEn {e : Bool} {l : Level} {n : State} (ht : (late e l n).edgeEn = true) :
    n.edgeEn = true ∨ e = true ∧ l = .released := by
  obtain ⟨hen, -, -⟩ := late_edge e l n
  simpa using Bool.and_elim_left (hen.symm.trans ht)

/-- Settles O42: what the tick leaves enabled only the fire clears; and what enables it is the tick's
release-confirm or the expiry. -/
theorem interlock : Obligations.Interlock := by
  intro s t v hv hr h
  obtain ⟨-, n, hn, rfl⟩ := step_case hv hr h
  have hen := TickCase.edgeEn_eq_true hn
  obtain ⟨hcfg, -, -⟩ := TickCase.oneshot hn
  refine ⟨fun hs ht => ?_, fun hs ht => ?_⟩
  · obtain ⟨hdb, hpend⟩ := late_fired_of_edgeEn_cleared (hen.2 (.inl hs)) ht
    exact ⟨hdb.trans (congrArg Params.debounceCycles hcfg), hpend⟩
  · rcases late_edgeEn ht with hen' | ⟨he, hl⟩
    · exact .inr ((hen.1 hen').resolve_left (ne_true_of_eq_false hs))
    · exact .inl ⟨exp_eq_true.1 he, hl⟩

end Sys2Proof.Machine
end

section
/-! Joined runs of clock cycles (R143), and a debounce window along a run (R80, R132): blind until its last cycle,
which decides by the level (R76 to R79). -/

namespace Sys2Proof.Machine

open Sys2Proof Sys2Proof.Safety

/-! ### Joined runs -/

/-- A clock cycle does not read what is queued behind it, and keeps it. -/
theorem clock_withInputs {s t : State} {v : InWord} (hl : s.cfg.Legal) (h : clock v s = .next t)
    (us : List InWord) : clock v (s.withInputs us) = .next (t.withInputs us) := by
  obtain ⟨-, -, hcycle⟩ := clock_environment hl h
  have hreads := clock_reads_registers hl h (us.map .input) s.cycle s.romData
  rwa [← hcycle] at hreads

/-- A run's first cycle as a clock cycle of the state itself, whatever it has queued. -/
theorem feed_cons_clock {s t : State} {v : InWord} (vs : List InWord) (hl : s.cfg.Legal)
    (h : clock v s = .next t) : feed (v :: vs) s = feed vs t :=
  (feed_cons hl (clock_withInputs hl h vs)).trans (feed_withInputs vs vs t)

/-- A run of joined inputs is the run of the first ones, then the run of the others (R143). -/
theorem feed_append {us vs : List InWord} {s : State} (hl : s.cfg.Legal) :
    feed (us ++ vs) s = andThen (feed us s) (feed vs) := by
  induction us generalizing s with
  | nil => exact (feed_withInputs vs [] s).symm
  | cons u us ih =>
    obtain ⟨n, hn⟩ := clock_total u hl
    have hnl : n.cfg.Legal := by rwa [(clock_environment hl hn).1]
    rw [List.cons_append, feed_cons_clock _ hl hn, feed_cons_clock _ hl hn, ih hnl]

/-- A run with one cycle more ends where that cycle leads. -/
theorem feed_concat {us : List InWord} {v : InWord} {s m t : State} (hl : s.cfg.Legal) (hlm : m.cfg.Legal)
    (hm : feed us s = .next m) (ht : clock v m = .next t) : feed (us ++ [v]) s = .next (t.withInputs []) := by
  rw [feed_append hl, hm, andThen_next, feed_cons_clock [] hlm ht, feed_nil]

/-! ### One cycle of a window -/

section

variable {s t : State} {v : InWord}

/-- A cycle without reset: one of the tick's six cases, then what follows the tick. -/
theorem clock_case (hl : s.cfg.Legal) (hr : inRst v = false) (h : clock v s = .next t) :
    ∃ n, TickCase s v n ∧ t = late s.exp (inLevel v) n := by
  rcases clock_next h with ⟨hr', -⟩ | ⟨-, n, hn, ht⟩
  · exact nomatch hr.symm.trans hr'
  · exact ⟨n, tickPart_case hl hn, ht⟩

/-- A session inside a window is past its release-confirm (R35 item 9). -/
theorem not_confirmTick_of_window (hl : s.cfg.Legal) (hk : Kept s) (hd : 0 < s.dbCnt) : ¬ ConfirmTick s v := by
  obtain ⟨⟨-, -, -, h4, -, -, -, -, h9⟩, -⟩ := hk
  rintro ⟨ht, -, hc⟩
  have hlt : s.high < s.cfg.confirmT := by
    rw [← hc, highNext_of_legal hl h4]
    exact Nat.lt_succ_self _
  exact hd.ne' (h9 ⟨(tick_eq_true.1 ht).1, hlt⟩).2

/-- Every cycle of a window but the last counts it down, and nothing restarts it (R75, R80). -/
theorem clock_counts_window (hl : s.cfg.Legal) (hk : Kept s) (hr : inRst v = false) (hd : 1 < s.dbCnt)
    (h : clock v s = .next t) : t.dbCnt = s.dbCnt - 1 := by
  obtain ⟨n, hn, rfl⟩ := clock_case hl hr h
  obtain ⟨-, hdb, -⟩ := TickCase.oneshot hn
  have hdpos : 0 < s.dbCnt := by omega
  have hexp : s.exp = false := Bool.eq_false_iff.2 (mt exp_eq_true.1 hd.ne')
  have hsen : s.edgeEn = false := by
    obtain ⟨⟨-, -, -, -, -, -, -, h8, -⟩, -⟩ := hk
    exact h8 hdpos
  have hen : n.edgeEn = false := by
    refine Bool.eq_false_iff.2 fun hen => ?_
    rcases (TickCase.edgeEn_eq_true hn).1 hen with hs | hc
    · exact nomatch hsen.symm.trans hs
    · exact not_confirmTick_of_window hl hk hdpos hc
  rw [← hdb, (late_edge s.exp (inLevel v) n).2.2, hexp, hen]
  rfl

/-- The last cycle of a window decides by its level (R76 to R78). -/
theorem clock_decides (hl : s.cfg.Legal) (hk : Kept s) (hr : inRst v = false) (hd : s.dbCnt = 1)
    (h : clock v s = .next t) :
    t.dbCnt = 0 ∧ (inLevel v = .released → t.edgeEn = true ∧ t.edgePend = false) ∧
    (inLevel v = .pressed → t.edgeEn = false ∧ t.sess = true ∧ t.low = 0 ∧ t.high = 0 ∧
      t.tkCnt = s.cfg.tickCycles) := by
  obtain ⟨⟨-, -, -, -, -, -, -, h8, -⟩, -⟩ := hk
  have hen : s.edgeEn = false := h8 (by omega)
  have hstep : step (s.withInputs [v]) = .next (t.withInputs []) :=
    (step_input (s := s.withInputs [v]) hl rfl).trans (clock_withInputs hl h [])
  obtain ⟨hbounce, hsession, hpress⟩ :=
    expiryCoincidences (s.withInputs [v]) (t.withInputs []) v (.inl ⟨[], rfl⟩) hr hstep hd
  rcases level_cases (inLevel v) with hv | hv
  · obtain ⟨hoff, hdb, -⟩ := hpress hv hen
    exact ⟨hdb, fun hv' => (nomatch hv.symm.trans hv'), fun _ => ⟨hoff, hsession hv⟩⟩
  · obtain ⟨hon, hpend, hdb⟩ := hbounce hv
    exact ⟨hdb, fun _ => ⟨hon, hpend⟩, fun hv' => nomatch hv.symm.trans hv'⟩

end

/-! ### Cycles without a session -/

/-- The working code, the snapshot and `ovr` are the same in both states. -/
def SameCode (s t : State) : Prop :=
  t.bufLen = s.bufLen ∧ t.bufSym = s.bufSym ∧ t.snapLen = s.snapLen ∧ t.snapSym = s.snapSym ∧ t.ovr = s.ovr

theorem SameCode.trans {s m t : State} (h : SameCode s m) (h' : SameCode m t) : SameCode s t := by
  obtain ⟨h1, h2, h3, h4, h5⟩ := h
  obtain ⟨h1', h2', h3', h4', h5'⟩ := h'
  exact ⟨h1'.trans h1, h2'.trans h2, h3'.trans h3, h4'.trans h4, h5'.trans h5⟩

/-- Without a session there is no tick, so a cycle leaves the code, and only a press expiry opens a session. -/
theorem clock_without_session {s t : State} {v : InWord} (hr : inRst v = false) (hs : s.sess = false)
    (h : clock v s = .next t) : SameCode s t ∧ t.sess = (s.exp && inLevel v == .pressed) := by
  have htick : s.tick = false := by simp [State.tick, hs]
  rw [clock_eq hr, tickPart, htick, if_neg Bool.false_ne_true, andThen_next] at h
  cases h
  obtain ⟨hlen, hsym, hslen, hssym, -, hovr, -⟩ := late_code s.exp (inLevel v) (early v s)
  refine ⟨⟨hlen, hsym, hslen, hssym, hovr⟩, ?_⟩
  rw [(late_session ..).1, show (early v s).sess = false from hs, Bool.false_or]

/-! ### The run of a window -/

/-- What `k` cycles of the window that runs in `s` leave while it is still running. -/
def InWindow (s : State) (k : Nat) (m : State) : Prop :=
  m.cfg = s.cfg ∧ Kept m ∧ m.dbCnt = s.dbCnt - k ∧ (s.sess = false → m.sess = false ∧ SameCode s m)

/-- One cycle more of a window that goes on running. -/
theorem InWindow.next {s m t : State} {k : Nat} {v : InWord} (h : InWindow s k m) (hl : m.cfg.Legal)
    (hr : inRst v = false) (hk : k + 1 < s.dbCnt) (ht : clock v m = .next t) : InWindow s (k + 1) t := by
  obtain ⟨hcfg, hkept, hdb, hidle⟩ := h
  have hrun : 1 < m.dbCnt := by omega
  have hexp : m.exp = false := Bool.eq_false_iff.2 (mt exp_eq_true.1 hrun.ne')
  refine ⟨(clock_environment hl ht).1.trans hcfg, clock_kept hl hkept ht, ?_, fun hs => ?_⟩
  · rw [clock_counts_window hl hkept hr hrun ht, hdb, Nat.sub_sub]
  · obtain ⟨hms, hcode⟩ := hidle hs
    obtain ⟨hcode', hts⟩ := clock_without_session hr hms ht
    exact ⟨by rw [hts, hexp, Bool.false_and], hcode.trans hcode'⟩

/-- A run without reset that is shorter than a window stays in it, whatever the line does (R80, R132). -/
theorem feed_inWindow {us : List InWord} {s : State} (hl : s.cfg.Legal) (hk : Kept s)
    (hr : ∀ u ∈ us, inRst u = false) (hd : us.length < s.dbCnt) :
    ∃ m, feed us s = .next m ∧ InWindow s us.length m := by
  obtain ⟨m, hm, hw⟩ := feed_induction (Q := fun u => inRst u = false)
    (P := fun k m => k < s.dbCnt → InWindow s k m) (fun _ _ _ h => h)
    (fun k v m t hl hr h ht hk => (h (Nat.lt_of_succ_lt hk)).next hl hr hk ht) us 0 s hl hr
    (fun _ => ⟨rfl, hk, rfl, fun hs => ⟨hs, rfl, rfl, rfl, rfl, rfl⟩⟩)
  rw [Nat.zero_add] at hw
  exact ⟨m, hm, hw hd⟩

/-- A run as long as a window: all its cycles but the last stay in the window, and the last starts with the one-shot
at 1. -/
theorem feed_window_end {us : List InWord} {v : InWord} {s : State} (hl : s.cfg.Legal) (hk : Kept s)
    (hr : ∀ u ∈ us ++ [v], inRst u = false) (hd : s.dbCnt = us.length + 1) :
    ∃ m t, InWindow s us.length m ∧ m.cfg.Legal ∧ m.dbCnt = 1 ∧ inRst v = false ∧ clock v m = .next t ∧
      feed (us ++ [v]) s = .next (t.withInputs []) := by
  rw [List.forall_mem_append, List.forall_mem_singleton] at hr
  obtain ⟨hus, hv⟩ := hr
  obtain ⟨m, hm, hw⟩ := feed_inWindow hl hk hus (by omega)
  have ⟨hcfg, _, hdb, _⟩ := hw
  have hlm : m.cfg.Legal := by rwa [hcfg]
  obtain ⟨t, ht⟩ := clock_total v hlm
  exact ⟨m, t, hw, hlm, by omega, hv, ht, feed_concat hl hlm hm ht⟩

/-- Settles O55: a run that is shorter than the window stays in it, where R35 item 8 keeps notification off; a run
of the window's length ends with the deciding cycle. -/
theorem oneDecisionPerArming : Obligations.OneDecisionPerArming := by
  intro vs s hl hk hpos hle hr
  obtain hlt | heq := Nat.lt_or_eq_of_le hle
  · obtain ⟨t, ht, -, ⟨⟨-, -, -, -, -, -, -, h8, -⟩, -⟩, hdb, -⟩ := feed_inWindow hl hk hr hlt
    exact ⟨t, ht, hdb, fun _ => h8 (by omega), fun heq => absurd heq hlt.ne⟩
  · obtain rfl | ⟨us, u, rfl⟩ := List.eq_nil_or_concat' vs
    · exact absurd heq hpos.ne
    · rw [List.length_append, List.length_singleton] at heq ⊢
      obtain ⟨m, t, ⟨hcfg, hkm, -⟩, hlm, hdm, hu, ht, hfeed⟩ := feed_window_end hl hk hr heq.symm
      obtain ⟨hdb, hbounce, hpress⟩ := clock_decides hlm hkm hu hdm ht
      refine ⟨t.withInputs [], hfeed, ?_, fun hlt => absurd heq hlt.ne, fun _ v hv => ?_⟩
      · rw [heq, Nat.sub_self]
        exact hdb
      · obtain rfl : u = v := by simpa using hv
        exact ⟨hbounce, hcfg ▸ hpress⟩

/-- Settles O56: up to the expiry the window opens no session and leaves the code, and a released expiry only
re-enables notification. -/
theorem shortPressInvisible : Obligations.ShortPressInvisible := by
  intro vs v s hl hk hs hd hr hv
  obtain ⟨m, t, ⟨-, hkm, -, hidle⟩, hlm, hdm, hu, ht, hfeed⟩ := feed_window_end hl hk hr hd
  obtain ⟨hms, hcode⟩ := hidle hs
  obtain ⟨hcode', hts⟩ := clock_without_session hu hms ht
  obtain ⟨hdb, hbounce, -⟩ := clock_decides hlm hkm hu hdm ht
  obtain ⟨hen, hpend⟩ := hbounce hv
  have hsess : t.sess = false := by
    rw [hts, hv]
    exact Bool.and_false _
  exact ⟨t.withInputs [], hfeed, hsess, hen, hpend, hdb, hcode.trans hcode'⟩

end Sys2Proof.Machine
end

section
/-! Which operations of duration_accumulator a cycle performs and what each of them does (R81 to R86), and what a
cycle leaves in the run counters (R87, R88). -/

namespace Sys2Proof.Machine

open Sys2Proof Sys2Proof.Safety

/-! ### The operations (R81 to R86) -/

/-- Settles O22: in a session the phase is `State.tkNext`, outside one it stays. -/
theorem tickAdvEffect : Obligations.TickAdvEffect := by
  refine ⟨fun s => ?_, fun s v => ?_⟩
  · show execTickAdv s = _
    rw [execTickAdv]
    split <;> rfl
  · rw [mem_cycleOps_iff]
    simp [evtCondition, selects, State.evt]

/-- Settles O23: the saturating increment is the minimum with the counter's greatest value. -/
theorem tickPressEffect : Obligations.TickPressEffect := by
  refine ⟨fun s => rfl, fun s v => ?_⟩
  rw [mem_cycleOps_iff]
  simp [evtCondition, selects, State.evt, tick_eq_true, and_assoc]

/-- Settles O24: the classifier checks of the counted state skip the confirm, and the pause is `endCode` after
`endTiming`. -/
theorem tickReleaseWithoutConfirm : Obligations.TickReleaseWithoutConfirm := by
  refine ⟨fun s hne hc => ?_, fun s => highNext_of_lt, fun s v => ?_⟩
  · exact (classifierChecks_cases (s := { s with high := s.highNext }) hne).trans (if_neg hc)
  · rw [mem_cycleOps_iff]
    simp [evtCondition, selects, State.evt, tick_eq_true, and_assoc]

/-- Settles O25: past the confirm the classifier checks do no more than CONFIRM itself, since the counted value is
not the pause threshold. -/
theorem tickReleaseConfirms : Obligations.TickReleaseConfirms := by
  intro s hne hc
  exact (classifierChecks_cases (s := { s with high := s.highNext }) hne).trans
    ((if_pos hc).trans (execConfirm_cases _).symm)

/-! ### The run counters after a cycle (R87, R88) -/

section

variable {s n t : State} {v : InWord}

/-- The tick zeroes `low` at a release-confirm or a pause, and otherwise only a pressed tick counts in it. -/
theorem TickCase.low_eq (h : TickCase s v n) :
    n.low =
      if ConfirmTick s v ∨ PauseTick s v then 0
      else if s.tick = true ∧ inLevel v = .pressed then s.lowNext else s.low := by
  rcases h with ⟨ht, hc, hp, rfl⟩ | ⟨ht, hl, hc, hp, rfl⟩ | ⟨hc, -, -, rfl⟩ | ⟨hc, -, -, rfl⟩ | ⟨hp, -, rfl⟩ |
    ⟨ht, hl, hc, hp, rfl⟩
  · rw [if_neg (not_or.2 ⟨hc, hp⟩), if_neg (by simp [ht])]
    rfl
  · rw [if_neg (not_or.2 ⟨hc, hp⟩), if_pos ⟨ht, hl⟩]
    rfl
  · exact (if_pos (.inl hc)).symm
  · exact (if_pos (.inl hc)).symm
  · exact (if_pos (.inr hp)).symm
  · rw [if_neg (not_or.2 ⟨hc, hp⟩), if_neg (by simp [hl])]
    rfl

/-- A code ends only at a release-confirm or a pause. -/
theorem not_endsCode (hc : ¬ ConfirmTick s v) (hp : ¬ PauseTick s v) : ¬ EndsCode s v :=
  not_or.2 ⟨hp, fun h => hc h.1⟩

/-- The tick zeroes `high` at an end of code, and otherwise only a released tick counts in it. -/
theorem TickCase.high_eq (h : TickCase s v n) :
    n.high =
      if EndsCode s v then 0
      else if s.tick = true ∧ inLevel v = .released then s.highNext else s.high := by
  rcases h with ⟨ht, hc, hp, rfl⟩ | ⟨ht, hl, hc, hp, rfl⟩ | ⟨hc, hp, hlen, rfl⟩ | ⟨hc, -, hlen, rfl⟩ |
    ⟨hp, -, rfl⟩ | ⟨ht, hl, hc, hp, rfl⟩
  · rw [if_neg (not_endsCode hc hp), if_neg (by simp [ht])]
    rfl
  · rw [if_neg (not_endsCode hc hp), if_neg (by simp [hl])]
    rfl
  · rw [if_neg (not_or.2 ⟨hp, fun h => hlen h.2⟩), if_pos ⟨hc.1, hc.2.1⟩]
    rfl
  · exact (if_pos (.inr ⟨hc, hlen⟩)).symm
  · exact (if_pos (.inl hp)).symm
  · rw [if_neg (not_endsCode hc hp), if_pos ⟨ht, hl⟩]
    rfl

theorem pressExpiry_iff : (s.exp && inLevel v == .pressed) = true ↔ s.dbCnt = 1 ∧ inLevel v = .pressed := by
  simp [exp_eq_true]

/-- `low` after a cycle without reset: zero after a press expiry, a release-confirm or a pause, counted in a pressed
tick (R85, R87). -/
theorem step_low (hv : NextInput s v) (hr : inRst v = false) (h : step s = .next t) :
    t.low =
      if (s.dbCnt = 1 ∧ inLevel v = .pressed) ∨ ConfirmTick s v ∨ PauseTick s v then 0
      else if s.tick = true ∧ inLevel v = .pressed then s.lowNext else s.low := by
  obtain ⟨-, n, hn, rfl⟩ := step_case hv hr h
  obtain ⟨-, -, hlow, -⟩ := late_session s.exp (inLevel v) n
  rw [hlow, TickCase.low_eq hn]
  exact (if_congr pressExpiry_iff rfl rfl).trans (ite_or ..).symm

/-- `high` after a cycle without reset: zero after a press expiry or an end of code, counted in a released tick
(R86, R87). -/
theorem step_high (hv : NextInput s v) (hr : inRst v = false) (h : step s = .next t) :
    t.high =
      if (s.dbCnt = 1 ∧ inLevel v = .pressed) ∨ EndsCode s v then 0
      else if s.tick = true ∧ inLevel v = .released then s.highNext else s.high := by
  obtain ⟨-, n, hn, rfl⟩ := step_case hv hr h
  obtain ⟨-, -, -, hhigh⟩ := late_session s.exp (inLevel v) n
  rw [hhigh, TickCase.high_eq hn]
  exact (if_congr pressExpiry_iff rfl rfl).trans (ite_or ..).symm

/-- A counter in range never goes down by counting a pressed tick (R85). -/
theorem le_lowNext (h : s.low ≤ s.cfg.cntMax) : s.low ≤ s.lowNext :=
  Nat.le_min.2 ⟨Nat.le_succ _, h⟩

/-- Below its greatest value `high` never goes down by counting a released tick (R86). -/
theorem le_highNext (h : s.high < s.cfg.cntMax) : s.high ≤ s.highNext := by
  rw [highNext_of_lt (Nat.add_lt_of_lt_sub h)]
  exact Nat.le_succ _

end

/-- A counter that is zeroed, counted up or left as it was goes down only where it is zeroed. -/
theorem zeroed_of_lt {zero counts : Prop} [Decidable zero] [Decidable counts] {old next new : Nat}
    (hnew : new = if zero then 0 else if counts then next else old) (hle : old ≤ next) (hlt : new < old) :
    new = 0 ∧ zero := by
  split at hnew
  next hzero => exact ⟨hnew, hzero⟩
  next =>
    have hge : old ≤ new := by
      rw [hnew]
      split
      · exact hle
      · exact Nat.le_refl _
    exact absurd hge (Nat.not_le_of_lt hlt)

/-- Settles O43: in a cycle a counter is zeroed, counted up or left as it was. -/
theorem countersZeroedOnlyThere : Obligations.CountersZeroedOnlyThere := by
  intro s t v hv hr h hlow hhigh
  exact ⟨zeroed_of_lt (step_low hv hr h) (le_lowNext hlow), zeroed_of_lt (step_high hv hr h) (le_highNext hhigh)⟩

/-- Settles O44: nothing is zeroed in such a tick, and the level picks the counter that counts; outside a session
there is no tick, and both counters are 0 already (R35 item 3). -/
theorem oneCounterPerTick : Obligations.OneCounterPerTick := by
  intro s t v hv hr h hinv
  obtain ⟨-, -, hidle, hpause, -⟩ := hinv
  rw [step_low hv hr h, step_high hv hr h]
  refine ⟨fun ht hc hp he => ?_, fun hs => ?_⟩
  · rw [if_neg (not_or.2 ⟨he, not_or.2 ⟨hc, hp⟩⟩), if_neg (not_or.2 ⟨he, not_endsCode hc hp⟩)]
    refine ⟨fun hl => ⟨if_pos ⟨ht, hl⟩, if_neg (by simp [hl])⟩, fun hl => ⟨?_, if_neg (by simp [hl])⟩⟩
    rw [if_pos ⟨ht, hl⟩, highNext_of_legal (legal_of_step h) hpause]
  · have ht : s.tick = false := by simp [State.tick, hs]
    obtain ⟨hlow, hhigh⟩ := hidle hs
    simp [ht, hlow, hhigh]

end Sys2Proof.Machine
end

section
/-! morse_symbol_classifier: CONFIRM and the end of a code (R90 to R94), what a cycle past the release-confirm does
(R96), and a run with the line held pressed (R97, R141). -/

namespace Sys2Proof.Machine

open Sys2Proof Sys2Proof.Safety

/-! ### The operations (R90 to R94) -/

/-- Settles O30: both operations are EndTiming, then EndCode (R92, R94). -/
theorem endOfCodeEffect : Obligations.EndOfCodeEffect :=
  fun _ => ⟨_, rfl, rfl, rfl⟩

/-- The confirmed press on a buffer with room: one symbol more, `low` zeroed and notification enabled (R91, R98). -/
theorem confirmed_of_lt {s : State} (h : s.bufLen.toNat < 4) :
    confirmed s =
      { s with
        bufSym := insertSym s.bufSym s.bufLen s.classify
        bufLen := s.bufLen + 1#3
        low := 0
        edgeEn := true } := by
  rw [← symNext_of_lt s.classify h, ← lenNext_of_lt s.classify h]
  rfl

/-- Settles O27: a buffer of at most two symbols is not filled, so the code goes on. -/
theorem confirmAddsSymbol : Obligations.ConfirmAddsSymbol := by
  intro s h
  have hroom : s.bufLen.toNat < 4 := h.trans (by decide)
  have hopen : s.lenNext s.classify ≠ 4#3 := fun h4 => by
    rw [(lenNext_eq_four _ hroom).1 h4] at h
    exact absurd h (by decide)
  show execConfirm s = _
  rw [execConfirm_cases, if_neg hopen, confirmed_of_lt hroom]
  rfl

/-- Settles O28: the fourth symbol fills the buffer, so the session and the code end after the append. -/
theorem confirmEndsFullCode : Obligations.ConfirmEndsFullCode := by
  intro s h
  have hroom : s.bufLen.toNat < 4 := h.trans_lt (by decide)
  have hthree : s.bufLen = 3#3 := BitVec.eq_of_toNat_eq h
  have hfull : s.lenNext s.classify = 4#3 := (lenNext_eq_four _ hroom).2 hthree
  show execConfirm s = _
  rw [execConfirm_cases, if_pos hfull, confirmed_of_lt hroom, hthree]
  rfl

/-! ### A session past its release-confirm (R96) -/

section

variable {s n t : State} {v : InWord}

/-- The tick leaves the working buffer where it neither confirms nor pauses (R89). -/
theorem TickCase.buffer_eq (h : TickCase s v n) (hc : ¬ ConfirmTick s v) (hp : ¬ PauseTick s v) :
    n.bufLen = s.bufLen ∧ n.bufSym = s.bufSym := by
  rcases h with ⟨-, -, -, rfl⟩ | ⟨-, -, -, -, rfl⟩ | ⟨hc', -⟩ | ⟨hc', -⟩ | ⟨hp', -⟩ | ⟨-, -, -, -, rfl⟩
  case inr.inr.inl | inr.inr.inr.inl => exact absurd hc' hc
  case inr.inr.inr.inr.inl => exact absurd hp' hp
  all_goals exact ⟨rfl, rfl⟩

/-- A pause tick ends the session and the code (R94). -/
theorem TickCase.eq_of_pauseTick (h : TickCase s v n) (hp : PauseTick s v) :
    n = endCode (endTiming (released v s)) := by
  rcases h with ⟨-, -, hp', -⟩ | ⟨-, -, -, hp', -⟩ | ⟨-, hp', -⟩ | ⟨-, hp', -⟩ | ⟨-, -, hn⟩ | ⟨-, -, -, hp', -⟩
  case inr.inr.inr.inr.inl => exact hn
  all_goals exact absurd hp hp'

/-- Without a threshold a cycle leaves the working buffer (R89). -/
theorem step_buffer_eq (hv : NextInput s v) (hr : inRst v = false) (h : step s = .next t)
    (hc : ¬ ConfirmTick s v) (hp : ¬ PauseTick s v) : t.bufLen = s.bufLen ∧ t.bufSym = s.bufSym := by
  obtain ⟨-, n, hn, rfl⟩ := step_case hv hr h
  obtain ⟨hlen, hsym, -⟩ := late_code s.exp (inLevel v) n
  rw [hlen, hsym]
  exact TickCase.buffer_eq (s := { s with stim := remaining s }) hn hc hp

/-- The cycle of a pause freezes the buffer into the snapshot, clears it and leaves no session: its line is released,
so no press opens one (R94). -/
theorem step_of_pauseTick (hv : NextInput s v) (hr : inRst v = false) (h : step s = .next t)
    (hp : PauseTick s v) :
    t.snapLen = s.bufLen ∧ t.snapSym = s.bufSym ∧ t.bufLen = 0#3 ∧ t.sess = false := by
  obtain ⟨-, n, hn, rfl⟩ := step_case hv hr h
  obtain ⟨hlen, -, hslen, hssym, -⟩ := late_code s.exp (inLevel v) n
  rw [hlen, hslen, hssym, (late_session ..).1, TickCase.eq_of_pauseTick hn hp, hp.2.1]
  exact ⟨rfl, rfl, rfl, Bool.and_false _⟩

/-- Past the release-confirm, `high` counts on from the confirm threshold, so no tick reaches it again (R96). -/
theorem not_confirmTick_of_confirmed (hl : s.cfg.Legal) (h4 : s.Inv4) (hpast : s.cfg.confirmT ≤ s.high) :
    ¬ ConfirmTick s v := by
  rintro ⟨-, -, hc⟩
  rw [highNext_of_legal hl h4] at hc
  omega

/-- Settles O45: no tick past the release-confirm is a second one, so only the pause touches the code; and `high`
goes back only where a press expiry or the pause zeroes it, of which the pause leaves no session. -/
theorem oneSymbolPerSession : Obligations.OneSymbolPerSession := by
  intro s t v hv hr h hinv _ hpast
  obtain ⟨-, -, -, h4, -⟩ := hinv
  have hl := legal_of_step h
  have hc : ¬ ConfirmTick s v := not_confirmTick_of_confirmed hl h4 hpast
  by_cases hp : PauseTick s v
  · obtain ⟨hslen, hssym, hlen, hsess⟩ := step_of_pauseTick hv hr h hp
    exact ⟨.inr ⟨hp, hslen, hssym, hlen⟩, fun ht => nomatch hsess.symm.trans ht⟩
  · refine ⟨.inl (step_buffer_eq hv hr h hc hp), fun _ => ?_⟩
    have hhigh := step_high hv hr h
    by_cases he : s.dbCnt = 1 ∧ inLevel v = .pressed
    · rw [if_pos (.inl he)] at hhigh
      exact .inr ⟨he.1, he.2, hhigh⟩
    · rw [if_neg (not_or.2 ⟨he, not_endsCode hc hp⟩), highNext_of_legal hl h4] at hhigh
      left
      split at hhigh <;> omega

end

/-! ### The line held pressed (R97, R141) -/

section

variable {s n t : State} {v : InWord}

/-- With the line pressed a cycle either has no tick or counts a pressed one. -/
theorem TickCase.eq_of_pressed (h : TickCase s v n) (hv : inLevel v = .pressed) :
    n = early v s ∨ n = pressed v s := by
  have hnot : inLevel v ≠ .released := by simp [hv]
  rcases h with ⟨-, -, -, hn⟩ | ⟨-, -, -, -, hn⟩ | ⟨⟨-, hr, -⟩, -⟩ | ⟨⟨-, hr, -⟩, -⟩ | ⟨⟨-, hr, -⟩, -⟩ |
    ⟨-, hr, -⟩
  · exact .inl hn
  · exact .inr hn
  all_goals exact absurd hr hnot

/-- What a session that is open in `s` keeps while it is held: it stays open in `t`, the code and its snapshot stay,
and `ready` has not risen. -/
def Held (s t : State) : Prop :=
  t.sess = true ∧ SameCode s t ∧ (t.ready = true → s.ready = true)

theorem Held.refl (h : s.sess = true) : Held s s := ⟨h, ⟨rfl, rfl, rfl, rfl, rfl⟩, id⟩

theorem Held.trans {m : State} (h : Held s m) (h' : Held m t) : Held s t := by
  obtain ⟨-, hcode, hready⟩ := h
  obtain ⟨hs, hcode', hready'⟩ := h'
  exact ⟨hs, hcode.trans hcode', hready ∘ hready'⟩

/-- The tick of a pressed cycle holds the session; only the consume touches `ready` (R85). -/
theorem TickCase.held (h : TickCase s v n) (hv : inLevel v = .pressed) (hs : s.sess = true) : Held s n := by
  rcases TickCase.eq_of_pressed h hv with rfl | rfl <;>
    exact ⟨hs, ⟨rfl, rfl, rfl, rfl, rfl⟩, Bool.and_elim_left⟩

/-- Expiry and fire hold an open session: a press expiry opens another in its place (R77). -/
theorem late_held (e : Bool) (l : Level) (hs : n.sess = true) : Held n (late e l n) := by
  obtain ⟨hlen, hsym, hslen, hssym, hready, hovr, -⟩ := late_code e l n
  refine ⟨?_, ⟨hlen, hsym, hslen, hssym, hovr⟩, hready.symm.trans⟩
  rw [(late_session ..).1, hs, Bool.true_or]

/-- A cycle with the line pressed and no reset holds an open session (R97). -/
theorem clock_held (hl : s.cfg.Legal) (hr : inRst v = false) (hv : inLevel v = .pressed) (hs : s.sess = true)
    (h : clock v s = .next t) : Held s t := by
  obtain ⟨n, hn, rfl⟩ := clock_case hl hr h
  have hheld := TickCase.held hn hv hs
  exact hheld.trans (late_held _ _ hheld.1)

end

/-- Settles O57: every cycle of the run holds the session that the cycles before it held. -/
theorem heldPressNeverEnds : Obligations.HeldPressNeverEnds := by
  intro vs s hl hs hvs
  obtain ⟨t, ht, hsess, ⟨hlen, hsym, hslen, hssym, hovr⟩, hready⟩ :=
    feed_induction (Q := fun v => inRst v = false ∧ inLevel v = .pressed) (P := fun _ m => Held s m)
      (fun _ _ _ h => h)
      (fun _ _ _ _ hl hv h ht => h.trans (clock_held hl hv.1 hv.2 h.1 ht)) vs 0 s hl hvs (Held.refl hs)
  exact ⟨t, ht, hsess, hlen, hsym, hslen, hssym, hovr, hready⟩

end Sys2Proof.Machine
end

section
/-! code_buffer_with_ready_flag: Append (R98, R99), CONSUME and ACK_IDLE (R103, R104), and what a cycle leaves in the
working buffer, the snapshot, `ready`, `ovr` and the output registers (R89, R100 to R102, R105, R106). -/

namespace Sys2Proof.Machine

open Sys2Proof Sys2Proof.Safety

/-! ### Append (R98, R99) -/

/-- Insertion writes the one bit it is given (R4, R98). -/
theorem getLsbD_insertSym (syms : CodeSym) (i : CodeLen) (b : Sym) {k : Nat} (hk : k < 4) :
    (insertSym syms i b).getLsbD k = if k = i.toNat then b == .dash else syms.getLsbD k := by
  have hbit : (1#4 <<< i.toNat).getLsbD k = decide (k = i.toNat) := by
    rw [← BitVec.twoPow_eq, BitVec.getLsbD_twoPow, ← Bool.decide_and]
    exact decide_eq_decide.2 (by omega)
  cases b
  case dot =>
    show (syms &&& ~~~(1#4 <<< i.toNat)).getLsbD k = _
    rw [BitVec.getLsbD_and, BitVec.getLsbD_not, hbit]
    split <;> simp [*]
  case dash =>
    show (syms ||| 1#4 <<< i.toNat).getLsbD k = _
    rw [BitVec.getLsbD_or, hbit]
    split <;> simp [*]

/-- Settles O26: a buffer with room takes the insertion at its length, and three bits hold the length after it. -/
theorem appendInsertsOneSymbol : Obligations.AppendInsertsOneSymbol := by
  intro s b h
  refine ⟨insertSym s.bufSym s.bufLen b, ?_, fun i hi => getLsbD_insertSym _ _ b hi, len_succ _ h⟩
  rw [append, lenNext_of_lt b h, symNext_of_lt b h]

/-- A handler-level Append on a full buffer is refused before R35 is looked at (R99, R118). -/
theorem handlerCall_append_full {s : State} (b : Sym) (h : 4 ≤ s.bufLen.toNat) :
    handlerCall (.append b) s = .refused .appendToFullBuffer :=
  if_pos (overfills_eq_true.2 ⟨⟨b, rfl⟩, h⟩)

/-- Settles O29: the refusal comes first, R35 item 5 excludes a full buffer, and CONFIRM's two cases are decided by
the length the append leaves, which stays within `buf_len`'s range whatever the free value is (entry 7). -/
theorem appendToFullBuffer : Obligations.AppendToFullBuffer := by
  intro s h
  refine ⟨fun b rest hl hstim => ?_, fun hinv => ?_, ?_⟩
  · rw [step_call hl hstim]
    exact handlerCall_append_full (s := { s with stim := rest }) b h
  · obtain ⟨-, -, -, -, ⟨hlen, -⟩, -⟩ := hinv
    omega
  · refine ⟨s.lenNext s.classify, s.symNext s.classify, lenNext_le s _, (execConfirm_cases s).trans ?_⟩
    split
    next hfull =>
      rw [← hfull]
      rfl
    next => rfl

/-! ### CONSUME and ACK_IDLE (R103, R104) -/

/-- Settles O31: the row asks for `ack` without reset, the state condition for a ready code. -/
theorem consumeEffect : Obligations.ConsumeEffect := by
  refine ⟨fun s => rfl, fun s v => ?_⟩
  rw [mem_cycleOps_iff]
  simp [evtCondition, selects, State.evt, and_assoc]

/-- Settles O32: the row is CONSUME's, the state condition its opposite. -/
theorem ackIdleEffect : Obligations.AckIdleEffect := by
  refine ⟨fun s => rfl, fun s v => ?_⟩
  rw [mem_cycleOps_iff]
  simp [evtCondition, selects, State.evt, and_assoc]

section

variable {s n t : State} {v : InWord}

/-! ### The output registers after a cycle (R103, R105) -/

/-- The tick does not touch the output registers that phase 0 has written. -/
theorem TickCase.output_eq (h : TickCase s v n) :
    n.outValid = (inAck v && s.ready) ∧
    n.outChar = if inAck v && s.ready then s.snapByte else s.outChar := by
  rcases h with ⟨-, -, -, rfl⟩ | ⟨-, -, -, -, rfl⟩ | ⟨-, -, -, rfl⟩ | ⟨-, -, -, rfl⟩ | ⟨-, -, rfl⟩ |
    ⟨-, -, -, -, rfl⟩ <;> exact ⟨rfl, rfl⟩

/-- The output registers after a cycle without reset: the byte of a consumed code, marked valid, or the byte of
before (R103, R105). -/
theorem step_output (hv : NextInput s v) (hr : inRst v = false) (h : step s = .next t) :
    t.outValid = (inAck v && s.ready) ∧
    t.outChar = if inAck v && s.ready then s.snapByte else s.outChar := by
  obtain ⟨-, n, hn, rfl⟩ := step_case hv hr h
  obtain ⟨-, -, -, -, -, -, hvalid, hchar, -⟩ := late_code s.exp (inLevel v) n
  rw [hvalid, hchar]
  exact TickCase.output_eq (s := { s with stim := remaining s }) hn

/-! ### The code after a cycle (R89, R100 to R102) -/

/-- Whether the tick ends a code decides what it leaves of `ready`, `ovr`, the buffer and the snapshot: it performs
EndCode on what the consume has left, or leaves the finished code alone (R100, R102). -/
theorem TickCase.endsCode_cases (h : TickCase s v n) :
    (EndsCode s v ∧ n.ready = true ∧ n.ovr = (s.ovr || (s.ready && !inAck v)) ∧
      n.bufLen = 0#3 ∧ n.bufSym = 0#4) ∨
    (¬ EndsCode s v ∧ n.ready = (s.ready && !inAck v) ∧ n.ovr = s.ovr ∧
      n.snapLen = s.snapLen ∧ n.snapSym = s.snapSym) := by
  rcases h with ⟨-, hc, hp, rfl⟩ | ⟨-, -, hc, hp, rfl⟩ | ⟨-, hp, hlen, rfl⟩ | ⟨hc, -, hlen, rfl⟩ | ⟨hp, -, rfl⟩ |
    ⟨-, -, hc, hp, rfl⟩
  case inr.inr.inl => exact .inr ⟨not_or.2 ⟨hp, fun h => hlen h.2⟩, rfl, rfl, rfl, rfl⟩
  case inr.inr.inr.inl => exact .inl ⟨.inr ⟨hc, hlen⟩, rfl, rfl, rfl, rfl⟩
  case inr.inr.inr.inr.inl => exact .inl ⟨.inl hp, rfl, rfl, rfl, rfl⟩
  all_goals exact .inr ⟨not_endsCode hc hp, rfl, rfl, rfl, rfl⟩

/-- A cycle without reset ends a code or leaves the finished code alone, but for a consume of it (R100 to R102). -/
theorem step_endsCode_cases (hv : NextInput s v) (hr : inRst v = false) (h : step s = .next t) :
    (EndsCode s v ∧ t.ready = true ∧ t.ovr = (s.ovr || (s.ready && !inAck v)) ∧
      t.bufLen = 0#3 ∧ t.bufSym = 0#4) ∨
    (¬ EndsCode s v ∧ t.ready = (s.ready && !inAck v) ∧ t.ovr = s.ovr ∧
      t.snapLen = s.snapLen ∧ t.snapSym = s.snapSym) := by
  obtain ⟨-, n, hn, rfl⟩ := step_case hv hr h
  obtain ⟨hlen, hsym, hslen, hssym, hready, hovr, -⟩ := late_code s.exp (inLevel v) n
  rw [hlen, hsym, hslen, hssym, hready, hovr]
  exact TickCase.endsCode_cases (s := { s with stim := remaining s }) hn

/-- A release-confirm tick appends the classified symbol, and ends the code where that fills the buffer (R91, R92). -/
theorem TickCase.eq_of_confirmTick (h : TickCase s v n) (hc : ConfirmTick s v) :
    n = if s.lenNext s.classify = 4#3 then endCode (endTiming (confirmed (released v s)))
      else confirmed (released v s) := by
  rcases h with ⟨-, hc', -⟩ | ⟨-, -, hc', -⟩ | ⟨-, -, hlen, hn⟩ | ⟨-, -, hlen, hn⟩ | ⟨-, hc', -⟩ | ⟨-, -, hc', -⟩
  case inr.inr.inl => rwa [if_neg hlen]
  case inr.inr.inr.inl => rwa [if_pos hlen]
  all_goals exact absurd hc hc'

/-- A release-confirm on at most two symbols adds the classified one to the working buffer (R91, R98). -/
theorem step_buffer_of_confirmTick (hv : NextInput s v) (hr : inRst v = false) (h : step s = .next t)
    (hc : ConfirmTick s v) (hlen : s.bufLen.toNat < 3) :
    t.bufLen = s.bufLen + 1#3 ∧ t.bufSym = insertSym s.bufSym s.bufLen s.classify := by
  have hroom : s.bufLen.toNat < 4 := hlen.trans (by decide)
  have hopen : s.lenNext s.classify ≠ 4#3 := fun hfull => by
    rw [(lenNext_eq_four _ hroom).1 hfull] at hlen
    exact absurd hlen (by decide)
  obtain ⟨-, n, hn, rfl⟩ := step_case hv hr h
  obtain ⟨hblen, hbsym, -⟩ := late_code s.exp (inLevel v) n
  have hn' := (TickCase.eq_of_confirmTick hn hc).trans (if_neg hopen)
  rw [hblen, hbsym, hn', ← lenNext_of_lt s.classify hroom, ← symNext_of_lt s.classify hroom]
  exact ⟨rfl, rfl⟩

/-- A release-confirm on three symbols freezes them with the classified one as the fourth (R91, R92, R100). -/
theorem step_snapshot_of_confirmTick (hv : NextInput s v) (hr : inRst v = false) (h : step s = .next t)
    (hc : ConfirmTick s v) (hlen : s.bufLen = 3#3) :
    t.snapLen = 4#3 ∧ t.snapSym = insertSym s.bufSym 3#3 s.classify := by
  have hroom : s.bufLen.toNat < 4 := by simp [hlen]
  have hfull : s.lenNext s.classify = 4#3 := (lenNext_eq_four _ hroom).2 hlen
  obtain ⟨-, n, hn, rfl⟩ := step_case hv hr h
  obtain ⟨-, -, hslen, hssym, -⟩ := late_code s.exp (inLevel v) n
  have hn' := (TickCase.eq_of_confirmTick hn hc).trans (if_pos hfull)
  rw [hslen, hssym, hn', ← hlen, ← symNext_of_lt s.classify hroom]
  exact ⟨hfull, rfl⟩

/-- The snapshot each end of a code leaves: the buffer at a pause, the buffer with its fourth symbol at a
release-confirm (R92, R94, R100). -/
theorem step_snapshot (hv : NextInput s v) (hr : inRst v = false) (h : step s = .next t) :
    (PauseTick s v → t.snapLen = s.bufLen ∧ t.snapSym = s.bufSym) ∧
    (ConfirmTick s v → s.bufLen = 3#3 →
      t.snapLen = 4#3 ∧ t.snapSym = insertSym s.bufSym 3#3 s.classify) := by
  refine ⟨fun hp => ?_, step_snapshot_of_confirmTick hv hr h⟩
  obtain ⟨hslen, hssym, -⟩ := step_of_pauseTick hv hr h hp
  exact ⟨hslen, hssym⟩

end

/-! ### The statements about a cycle -/

/-- Settles O38: reset clears both registers; any other cycle writes them only by a consume. -/
theorem outputLifetime : Obligations.OutputLifetime := by
  intro s t v hv h
  cases hr : inRst v
  case true =>
    rw [step_reset hv hr h]
    simp
  case false =>
    obtain ⟨hvalid, hchar⟩ := step_output hv hr h
    exact ⟨by simp [hvalid], hchar⟩

/-- Settles O39: a cycle that ends no code keeps the snapshot, and one that ends a code performs EndCode. -/
theorem snapshotFrozen : Obligations.SnapshotFrozen := by
  intro s t v hv hr h
  obtain ⟨hpause, hconfirm⟩ := step_snapshot hv hr h
  rcases step_endsCode_cases hv hr h with ⟨he, hready, -, hlen, hsym⟩ | ⟨he, -, -, hslen, hssym⟩
  · exact ⟨fun _ => he, fun _ => ⟨hready, hlen, hsym, hpause, hconfirm⟩⟩
  · exact ⟨fun hne => (hne.elim (· hslen) (· hssym)).elim, fun he' => absurd he' he⟩

/-- Settles O40: an ended code raises `ready`, over whatever the consume left of it in `ovr`; else both stay but for
the consume. -/
theorem readyAndOverrun : Obligations.ReadyAndOverrun := by
  intro s t v hv hr h
  rcases step_endsCode_cases hv hr h with ⟨he, hready, hovr, -⟩ | ⟨he, hready, hovr, -⟩ <;>
    simp [hready, hovr, he]

/-- Settles O41: phase 0 has emitted the old code and cleared `ready` before the tick ends the new one, so no
overrun is set (R106). -/
theorem consumeWithEndOfCode : Obligations.ConsumeWithEndOfCode := by
  intro s t v hv hr h hack hs he
  obtain ⟨hvalid, hchar⟩ := step_output hv hr h
  rw [hack, hs] at hvalid hchar
  rcases step_endsCode_cases hv hr h with ⟨-, hready, hovr, -⟩ | ⟨he', -⟩
  · rw [hack, hs, Bool.not_true, Bool.and_false, Bool.or_false] at hovr
    exact ⟨hvalid, hchar, hready, hovr, step_snapshot hv hr h⟩
  · exact absurd he he'

/-- Settles O46: only a threshold touches the working buffer, and a release-confirm with room left after it adds one
symbol. -/
theorem bufferChangesOnlyAtConfirm : Obligations.BufferChangesOnlyAtConfirm :=
  fun _ _ _ hv hr h => ⟨step_buffer_eq hv hr h, step_buffer_of_confirmTick hv hr h⟩

end Sys2Proof.Machine
end

section
/-! The ROM (R107 to R110): its contents, ROM_READ, and where the sentinel stands. -/

namespace Sys2Proof.Machine

open Sys2Proof Sys2Proof.Safety

/-- `{len, sym}` is the address `len * 16 + sym` (R54, R110). -/
theorem toNat_romAddr (len : CodeLen) (syms : CodeSym) :
    (romAddr len syms).toNat = len.toNat * 16 + syms.toNat := by
  rw [romAddr, BitVec.toNat_append, ← Nat.shiftLeft_add_eq_or_of_lt syms.isLt, Nat.shiftLeft_eq]

/-! ### The contents (R108, R110) -/

/-- The exact-match search of the table (R107, R112) finds at each address the letter that R110 prints there. -/
theorem romLetter_eq_printedRom (a : RomAddr) : romLetter a = printedRom.getD a.toNat none := by
  revert a
  decide

/-- The ROM answers the entry R110 prints, `SENTINEL` where it prints no letter (R107, R109). -/
theorem rom_eq_printedRom (p : Params) (a : RomAddr) :
    rom p a = (printedRom.getD a.toNat none).getD p.sentinel := by
  rw [rom, romLetter_eq_printedRom]

/-- Settles O33: the search of the table gives the printed entries, which are then counted. -/
theorem romHoldsPrintedTable : Obligations.RomHoldsPrintedTable :=
  ⟨rom_eq_printedRom, rfl, by decide, by decide⟩

/-- Settles O34: the snapshot's code word is the address of its printed entry, and no cycle selects the row. -/
theorem romReadEffect : Obligations.RomReadEffect := by
  refine ⟨fun s => ?_, fun s v => ?_⟩
  · show execRomRead s = _
    rw [execRomRead, State.snapByte, rom_eq_printedRom, toNat_romAddr]
  · rw [mem_cycleOps_iff]
    exact fun ⟨_, h⟩ => nomatch h

/-! ### Letters and the sentinel (R108, R109) -/

/-- The four-symbol patterns no letter uses: `..--`, `.-.-`, `---.` and `----` (R109, case 4). -/
abbrev UnusedPattern (syms : CodeSym) : Prop := syms = 0xC#4 ∨ syms = 0xA#4 ∨ syms = 0x7#4 ∨ syms = 0xF#4

/-- A code is a letter's when it is of one to four symbols, canonical, and none of the four unused patterns. -/
abbrev LetterCode (len : CodeLen) (syms : CodeSym) : Prop :=
  1 ≤ len.toNat ∧ len.toNat ≤ 4 ∧ Canonical len syms ∧ ¬ (len.toNat = 4 ∧ UnusedPattern syms)

/-- The table has a letter for exactly these codes (R108). -/
theorem romLetter_isSome_iff (len : CodeLen) (syms : CodeSym) :
    (romLetter (romAddr len syms)).isSome = true ↔ LetterCode len syms := by
  revert len syms
  decide

/-- R109's four cases are codes of no letter. -/
theorem not_letterCode {len : CodeLen} {syms : CodeSym}
    (h : len.toNat = 0 ∨ 5 ≤ len.toNat ∨ (1 ≤ len.toNat ∧ len.toNat ≤ 3 ∧ ¬ Canonical len syms) ∨
      (len.toNat = 4 ∧ UnusedPattern syms)) : ¬ LetterCode len syms := by
  rintro ⟨hpos, hle, hcan, hused⟩
  rcases h with hempty | hlong | ⟨-, -, hncan⟩ | hunused
  · omega
  · omega
  · exact hncan hcan
  · exact hused hunused

/-- Every byte of the table is from `A` to `Z` (R108). -/
theorem morseTable_uppercase : ∀ r ∈ morseTable, 0x41 ≤ r.1.toNat ∧ r.1.toNat ≤ 0x5A := by
  decide

/-- What the search answers is the byte of an entry of the table (R107). -/
theorem romLetter_uppercase {a : RomAddr} {b : Byte} (h : romLetter a = some b) :
    0x41 ≤ b.toNat ∧ b.toNat ≤ 0x5A := by
  obtain ⟨r, hr, rfl⟩ := Option.map_eq_some_iff.1 h
  exact morseTable_uppercase r (List.mem_of_find?_eq_some hr)

/-- Settles O35: R109's cases are no letter's code, so the search finds nothing; at a letter's code it finds an entry
of the table. -/
theorem sentinelWhereUnassigned : Obligations.SentinelWhereUnassigned := by
  refine fun p len syms => ⟨fun h => ?_, fun h => ?_⟩
  · have hnone : romLetter (len ++ syms) = none :=
      Option.not_isSome_iff_eq_none.1 (mt (romLetter_isSome_iff len syms).1 (not_letterCode h))
    rw [rom, hnone, Option.getD_none]
  · obtain ⟨b, hsome⟩ : ∃ b, romLetter (len ++ syms) = some b :=
      Option.isSome_iff_exists.1 ((romLetter_isSome_iff len syms).2 h)
    rw [rom, hsome, Option.getD_some]
    exact romLetter_uppercase hsome

end Sys2Proof.Machine
end

section
/-! The reset state (R127 to R130), a pending edge that fires in the cycle that enables notification (R74, R134), where
a session opens and ends (R22, R137), and the ticks that a session held pressed counts (R81, R85, R133). -/

namespace Sys2Proof.Machine

open Sys2Proof Sys2Proof.Safety

/-! ### The reset state (R127 to R129) -/

/-- Settles O36: the effect is R128's table, its invariants are those of a kept state, and RESET's row asks for `RST`
alone. -/
theorem resetEffect : Obligations.ResetEffect := by
  refine ⟨fun s => rfl, fun s t hl h => ?_, fun s v => ?_⟩
  · obtain rfl : resetRegisters s = t := Host.Outcome.next.inj h
    obtain ⟨hinv, -⟩ := kept_resetRegisters hl
    exact ⟨hinv, rfl⟩
  · rw [mem_cycleOps_iff]
    simp [evtCondition, selects, State.evt]

/-- Settles O51: RESET keeps the parameters it finds, so a build's reset state is what RESET makes of it; that of
`State.reset` is the build TC. -/
theorem invariantsHoldAtReset : Obligations.InvariantsHoldAtReset := by
  have hkept : ∀ p : Params, p.Legal → Kept { State.reset with cfg := p } := fun p hp =>
    kept_resetRegisters (s := { State.reset with cfg := p }) hp
  exact ⟨hkept Params.tc (by decide), by decide, hkept⟩

section

variable {s n t : State} {v : InWord}

/-! ### Cycles with the line pressed -/

/-- With the line pressed, phases 0 to 3 count a pressed tick or have no tick (R84, R85). -/
theorem tickPart_of_pressed (hv : inLevel v = .pressed) :
    tickPart v s = .next (if s.tick = true then pressed v s else early v s) := by
  rw [tickPart, hv]
  split <;> rfl

/-- A pressed cycle without reset: the pressed tick where there is one, then expiry, fire and count. -/
theorem clock_of_pressed (hr : inRst v = false) (hv : inLevel v = .pressed) :
    clock v s = .next (late s.exp .pressed (if s.tick = true then pressed v s else early v s)) := by
  rw [clock_eq hr, tickPart_of_pressed hv, andThen_next, hv]

/-! ### A pending edge that fires -/

/-- Without an expiry, an enabled pending edge fires (R74). -/
theorem late_fires (l : Level) (hen : n.edgeEn = true) (hpend : n.edgePend = true) :
    (late false l n).edgeEn = false ∧ (late false l n).edgePend = false ∧
    (late false l n).dbCnt = n.cfg.debounceCycles := by
  simp [late_edge, hen, hpend]

/-! ### A session that opens or ends -/

/-- The tick ends a session exactly where it ends a code, and opens none (R92 to R94). -/
theorem TickCase.sess_eq_true (h : TickCase s v n) :
    n.sess = true ↔ s.sess = true ∧ ¬ EndsCode s v := by
  rcases h with ⟨-, hc, hp, rfl⟩ | ⟨-, -, hc, hp, rfl⟩ | ⟨-, hp, hlen, rfl⟩ | ⟨hc, -, hlen, rfl⟩ | ⟨hp, -, rfl⟩ |
    ⟨-, -, hc, hp, rfl⟩
  case inr.inr.inl => exact (and_iff_left (not_or.2 ⟨hp, fun h => hlen h.2⟩)).symm
  case inr.inr.inr.inl => exact iff_of_false nofun fun h => h.2 (.inr ⟨hc, hlen⟩)
  case inr.inr.inr.inr.inl => exact iff_of_false nofun fun h => h.2 (.inl hp)
  all_goals exact (and_iff_left (not_endsCode hc hp)).symm

/-- A session is open after a cycle without reset when no code ended in it, or when a press expiry has opened it
(R22, R77). -/
theorem step_sess (hv : NextInput s v) (hr : inRst v = false) (h : step s = .next t) :
    t.sess = true ↔ (s.sess = true ∧ ¬ EndsCode s v) ∨ (s.dbCnt = 1 ∧ inLevel v = .pressed) := by
  obtain ⟨-, n, hn, rfl⟩ := step_case hv hr h
  obtain ⟨hsess, -⟩ := late_session s.exp (inLevel v) n
  rw [hsess, Bool.or_eq_true, pressExpiry_iff]
  exact or_congr_left (TickCase.sess_eq_true (s := { s with stim := remaining s }) hn)

/-! ### The ticks of a session held pressed (R81, R85, R133) -/

/-- A pressed cycle of a session, without an expiry: the phase advances, and the cycle at phase 1 counts in `low`. -/
theorem clock_counts_pressed (hr : inRst v = false) (hv : inLevel v = .pressed) (hs : s.sess = true)
    (hd : s.dbCnt ≠ 1) (h : clock v s = .next t) :
    t.tkCnt = s.tkNext ∧ t.low = (if s.tkCnt = 1 then s.lowNext else s.low) ∧ t.high = s.high := by
  have hexp : s.exp = false := Bool.eq_false_iff.2 (mt exp_eq_true.1 hd)
  have htick : s.tick = true ↔ s.tkCnt = 1 := tick_eq_true.trans (and_iff_right hs)
  rw [clock_of_pressed hr hv, hexp] at h
  cases h
  obtain ⟨-, htk, hlow, hhigh⟩ := late_session false .pressed (if s.tick = true then pressed v s else early v s)
  rw [htk, hlow, hhigh, if_congr htick rfl rfl]
  by_cases h1 : s.tkCnt = 1
  · rw [if_pos h1, if_pos h1]
    exact ⟨if_pos hs, rfl, rfl⟩
  · rw [if_neg h1, if_neg h1]
    exact ⟨if_pos hs, rfl, rfl⟩

/-- The session open in `m` has been held pressed for `k` cycles since it opened at zero phase: `q` whole tick periods,
counted in `low` as far as it goes, and the part of the next one that `tk_cnt` still leaves open. -/
def HeldFor (k : Nat) (m : State) : Prop :=
  Kept m ∧ m.sess = true ∧ m.high = 0 ∧
  ∃ q, k + m.tkCnt = (q + 1) * m.cfg.tickCycles ∧ m.low = min q m.cfg.cntMax

/-- One pressed cycle more. The release-confirm is still to come, so the one-shot is idle (R35 item 9) and no press
expiry opens another session. -/
theorem HeldFor.next {k : Nat} (h : HeldFor k s) (hl : s.cfg.Legal) (hr : inRst v = false)
    (hv : inLevel v = .pressed) (ht : clock v s = .next t) : HeldFor (k + 1) t := by
  obtain ⟨hk, hs, hhigh, q, hphase, hlow⟩ := h
  obtain ⟨hcfg, -⟩ := clock_environment hl ht
  obtain ⟨hsess, -⟩ := clock_held hl hr hv hs ht
  have hk' := clock_kept hl hk ht
  obtain ⟨⟨⟨-, hrun⟩, -, -, -, -, -, -, -, hunconfirmed⟩, -⟩ := hk
  obtain ⟨-, -, -, hct, -⟩ := hl
  have hdb : s.dbCnt = 0 := (hunconfirmed ⟨hs, hhigh ▸ hct⟩).2
  obtain ⟨htk', hlow', hhigh'⟩ := clock_counts_pressed hr hv hs (by omega) ht
  have hpos : 1 ≤ s.tkCnt := (hrun hs).1
  refine ⟨hk', hsess, hhigh'.trans hhigh, ?_⟩
  rw [htk', hlow', hcfg]
  by_cases h1 : s.tkCnt = 1
  · refine ⟨q + 1, ?_, ?_⟩
    · rw [State.tkNext, if_pos h1, Nat.succ_mul (q + 1), ← hphase, h1]
    · rw [if_pos h1, lowNext_eq, hlow]
      omega
  · refine ⟨q, ?_, ?_⟩
    · rw [tkNext_of_ne_one h1, ← hphase]
      omega
    · rw [if_neg h1, hlow]

/-- The whole tick periods in `k` cycles are `k / TICK_CYCLES`. -/
theorem HeldFor.low_eq {k : Nat} (h : HeldFor k s) : s.low = min (k / s.cfg.tickCycles) s.cfg.cntMax := by
  obtain ⟨⟨⟨⟨-, hrun⟩, -⟩, -⟩, hs, -, q, hphase, hlow⟩ := h
  obtain ⟨hpos, hle⟩ := hrun hs
  have hq : k / s.cfg.tickCycles = q := by
    rw [Nat.succ_mul] at hphase
    refine Nat.div_eq_of_lt_le ?_ ?_
    · omega
    · rw [Nat.succ_mul]
      omega
  rw [hq, hlow]

end

/-! ### The statements -/

/-- Settles O58: each pressed cycle advances the phase, and every period counts one tick, so `k` cycles hold
`k / TICK_CYCLES` of them. -/
theorem pressedTicksCounted : Obligations.PressedTicksCounted := by
  intro vs s hl hk hs htk hlow hhigh hvs
  have hstart : HeldFor 0 s := ⟨hk, hs, hhigh, 0, by omega, by omega⟩
  obtain ⟨t, ht, hcfg, hheld⟩ :=
    feed_induction (Q := fun v => inRst v = false ∧ inLevel v = .pressed)
      (P := fun k m => m.cfg = s.cfg ∧ HeldFor k m) (fun _ _ _ h => h)
      (fun _ _ _ _ hl hv h ht =>
        ⟨(clock_environment hl ht).1.trans h.1, h.2.next hl hv.1 hv.2 ht⟩) vs 0 s hl hvs ⟨rfl, hstart⟩
  have hcount := hheld.low_eq
  obtain ⟨-, hsess, hhigh', -⟩ := hheld
  rw [Nat.zero_add, hcfg] at hcount
  exact ⟨t, ht, hsess, hhigh', hcount⟩

/-- Settles O47: a session that is gone has ended its code, and one that is new a press expiry has opened. -/
theorem busyFallsOnlyAtEndOfCode : Obligations.BusyFallsOnlyAtEndOfCode := by
  intro s t v hv hr h
  have hsess := step_sess hv hr h
  refine ⟨fun hs ht => ?_, fun hs ht => ?_⟩
  · rcases step_endsCode_cases hv hr h with ⟨he, hready, -⟩ | ⟨he, -⟩
    · exact ⟨he, hready⟩
    · exact nomatch ht.symm.trans (hsess.2 (.inl ⟨hs, he⟩))
  · exact (hsess.1 ht).resolve_left fun ⟨hs', _⟩ => nomatch hs.symm.trans hs'

/-- Settles O49: the release-confirm enables notification in phase 3, and the edge that is still pending fires in
phase 5. -/
theorem pendingEdgeFiresAtConfirm : Obligations.PendingEdgeFiresAtConfirm := by
  intro s t v hv hr h hc hd hpend
  obtain ⟨-, n, hn, rfl⟩ := step_case hv hr h
  obtain ⟨hcfg, -, hpend'⟩ := TickCase.oneshot hn
  have hen : n.edgeEn = true := (TickCase.edgeEn_eq_true hn).2 (.inr hc)
  have hpending : n.edgePend = true := hpend'.trans (by simp [hpend])
  obtain ⟨hoff, hnone, hdb⟩ := late_fires (inLevel v) hen hpending
  rw [Bool.eq_false_iff.2 (mt exp_eq_true.1 hd)]
  exact ⟨hoff, hnone, hdb.trans (congrArg Params.debounceCycles hcfg)⟩

/-- Settles O50: reset leaves `line_q` released and notification on, so a pressed line is a falling edge that fires
at once. -/
theorem heldPressFiresAfterReset : Obligations.HeldPressFiresAfterReset := by
  intro s v _ hr hv
  have hpend : (early v (resetRegisters s)).edgePend = true := by
    show (false || Level.released == .released && inLevel v == .pressed) = true
    rw [hv]
    rfl
  obtain ⟨hoff, hnone, hdb⟩ := late_fires .pressed (n := early v (resetRegisters s)) rfl hpend
  obtain ⟨-, -, -, -, -, -, -, -, hline, -⟩ := late_code false .pressed (early v (resetRegisters s))
  obtain ⟨hsess, -⟩ := late_session false .pressed (early v (resetRegisters s))
  exact ⟨_, clock_of_pressed hr hv, hline.trans hv, hoff, hnone, hdb, hsess⟩

end Sys2Proof.Machine
end

section
/-! The ranges of 10_state.md, kept by every step. Each operation keeps them on any state, so a sequence of operations,
a clock cycle, an event word and a handler-level call do, whether or not the state keeps R35. -/

namespace Sys2Proof.Machine

open Sys2Proof Sys2Proof.Safety

section

variable {s t : State}

/-! ### The shared operations -/

/-- RESET leaves every counter and length 0 (R128). -/
theorem inRange_resetRegisters (s : State) : InRange (resetRegisters s) :=
  ⟨Nat.zero_le _, Nat.zero_le _, Nat.zero_le _, Nat.zero_le _, Nat.zero_le _, Nat.zero_le _⟩

theorem inRange_endTiming (h : InRange s) : InRange (endTiming s) := by
  obtain ⟨hdb, -, -, -, hbuf, hsnap⟩ := h
  exact ⟨hdb, Nat.zero_le _, Nat.zero_le _, Nat.zero_le _, hbuf, hsnap⟩

/-- The snapshot takes its length from the buffer, whose range is the same (R26, R27, R100). -/
theorem inRange_endCode (h : InRange s) : InRange (endCode s) := by
  obtain ⟨hdb, htk, hlow, hhigh, hbuf, -⟩ := h
  exact ⟨hdb, htk, hlow, hhigh, Nat.zero_le _, hbuf⟩

/-- Append to a buffer of any length, a full one among them (entry 7). -/
theorem inRange_append (b : Sym) (h : InRange s) : InRange (append b s) := by
  obtain ⟨hdb, htk, hlow, hhigh, -, hsnap⟩ := h
  exact ⟨hdb, htk, hlow, hhigh, lenNext_le s b, hsnap⟩

theorem inRange_confirmed (h : InRange s) : InRange (confirmed s) := by
  obtain ⟨hdb, htk, -, hhigh, hbuf, hsnap⟩ := inRange_append s.classify h
  exact ⟨hdb, htk, Nat.zero_le _, hhigh, hbuf, hsnap⟩

/-! ### The checks of a released tick (R95) -/

theorem inRange_of_execConfirm (hs : InRange s) (h : execConfirm s = .next t) : InRange t := by
  rw [execConfirm_cases] at h
  split at h <;> cases h
  · exact inRange_endCode (inRange_endTiming (inRange_confirmed hs))
  · exact inRange_confirmed hs

theorem inRange_of_pauseCheck (hs : InRange s) (h : pauseCheck s = .next t) : InRange t := by
  unfold pauseCheck at h
  split at h <;> cases h
  · exact inRange_endCode (inRange_endTiming hs)
  · exact hs

theorem inRange_of_classifierChecks (hs : InRange s) (h : classifierChecks s = .next t) : InRange t := by
  unfold classifierChecks at h
  split at h
  · obtain ⟨n, hn, ht⟩ := andThen_eq_next.1 h
    have hn' := inRange_of_execConfirm hs hn
    split at ht
    · cases ht
      exact hn'
    · exact inRange_of_pauseCheck hn' ht
  · exact inRange_of_pauseCheck hs h

/-! ### The operations of R56 and the procedures a harness calls -/

/-- Every operation keeps the ranges. A released tick's `high` is taken within its width even where the sum does not
fit (entry 5). -/
theorem inRange_of_exec {i : Instr} (hs : InRange s) (h : exec i s = .next t) : InRange t := by
  have ⟨hdb, htk, hlow, hhigh, hbuf, hsnap⟩ := hs
  cases i with
  | reset =>
    cases h
    exact inRange_resetRegisters s
  | tickAdv =>
    simp only [exec, execTickAdv] at h
    split at h <;> cases h
    · exact ⟨hdb, tkNext_le htk, hlow, hhigh, hbuf, hsnap⟩
    · exact hs
  | oneshotAdv =>
    simp only [exec, execOneshotAdv] at h
    split at h <;> cases h
    · exact ⟨(Nat.sub_le _ _).trans hdb, htk, hlow, hhigh, hbuf, hsnap⟩
    · exact hs
  | edgeLatch lvl =>
    simp only [exec, execEdgeLatch] at h
    split at h <;> cases h <;> exact hs
  | tickPress =>
    cases h
    exact ⟨hdb, htk, lowNext_le s, hhigh, hbuf, hsnap⟩
  | tickRelease =>
    have hcounted : InRange { s with high := s.highNext } := ⟨hdb, htk, hlow, highNext_le s, hbuf, hsnap⟩
    exact inRange_of_classifierChecks hcounted h
  | confirm => exact inRange_of_execConfirm hs h
  | endFull | endPause =>
    cases h
    exact inRange_endCode (inRange_endTiming hs)
  | expirePress =>
    cases (execExpirePress_eq s).symm.trans h
    exact ⟨hdb, le_rfl, Nat.zero_le _, Nat.zero_le _, hbuf, hsnap⟩
  | fire =>
    cases h
    exact ⟨le_rfl, htk, hlow, hhigh, hbuf, hsnap⟩
  | consume | ackIdle | lineSample | expireBounce | romRead =>
    cases h
    exact hs

theorem tickHandler_eq_exec (lvl : Level) (s : State) : tickHandler lvl s = exec (tickOp lvl) s := by
  cases lvl <;> rfl

theorem expireHandler_eq_exec (lvl : Level) (s : State) : expireHandler lvl s = exec (expOp lvl) s := by
  cases lvl <;> rfl

theorem consumeStep_eq_exec (s : State) :
    consumeStep s = exec (if s.ready = true then .consume else .ackIdle) s := by
  unfold consumeStep
  split <;> rfl

theorem inRange_of_runCall {c : Call} (hs : InRange s) (h : runCall c s = .next t) : InRange t := by
  cases c with
  | op i => exact inRange_of_exec hs h
  | tickHandler lvl => exact inRange_of_exec hs ((tickHandler_eq_exec lvl s).symm.trans h)
  | expireHandler lvl => exact inRange_of_exec hs ((expireHandler_eq_exec lvl s).symm.trans h)
  | consumeStep => exact inRange_of_exec hs ((consumeStep_eq_exec s).symm.trans h)
  | append b =>
    cases h
    exact inRange_append b hs
  | endTiming =>
    cases h
    exact inRange_endTiming hs
  | endCode =>
    cases h
    exact inRange_endCode hs

/-! ### The clock cycle -/

theorem inRange_of_runOps {is : List Instr} (hs : InRange s) (h : runOps is s = .next t) : InRange t := by
  induction is generalizing s with
  | nil =>
    cases h
    exact hs
  | cons i is ih =>
    obtain ⟨n, hn, ht⟩ := andThen_eq_next.1 h
    exact ih (inRange_of_exec hs hn) ht

theorem inRange_of_firePhase (hs : InRange s) (h : firePhase s = .next t) : InRange t := by
  unfold firePhase at h
  split at h
  · exact inRange_of_exec hs h
  · cases h
    exact hs

theorem inRange_of_clock {v : InWord} (hs : InRange s) (h : clock v s = .next t) : InRange t := by
  obtain ⟨n, hn, ht⟩ := andThen_eq_next.1 h
  cases ht
  show InRange n
  unfold cycle at hn
  split at hn
  · exact inRange_of_runOps hs hn
  · obtain ⟨m, hm, hfire⟩ := andThen_eq_next.1 hn
    have hbegin : InRange (beginCycle s) := hs
    exact inRange_of_firePhase (inRange_of_runOps hbegin hm) hfire

/-! ### The stimuli of a harness (R57, R61) -/

/-- An event word answers a next state only through the cycle of the input vector it names. -/
theorem clock_of_clockEvent {w : EvtWord} (h : clockEvent w s = .next t) : clock (evtInput w) s = .next t := by
  rw [clockEvent_eq] at h
  split at h
  · cases h
  · split at h
    · exact h
    · cases h

/-- A handler-level call answers a next state only through the procedure it names. -/
theorem runCall_of_handlerCall {c : Call} (h : handlerCall c s = .next t) : runCall c s = .next t := by
  unfold handlerCall at h
  split at h
  · cases h
  · split at h
    · exact h
    · cases h

end

/-- Settles O54: whichever stimulus the step takes, its next state is that of a clock cycle or of a called procedure,
and both are made of operations that keep the ranges. -/
theorem stepsKeepRegisterRanges : Obligations.StepsKeepRegisterRanges := by
  intro s t hs h
  have hl := legal_of_step h
  cases hstim : s.stim with
  | nil => exact inRange_of_clock hs ((step_free hl hstim).symm.trans h)
  | cons x rest =>
    have htaken : InRange { s with stim := rest } := hs
    cases x with
    | input v => exact inRange_of_clock htaken ((step_input hl hstim).symm.trans h)
    | event w => exact inRange_of_clock htaken (clock_of_clockEvent ((step_event hl hstim).symm.trans h))
    | call c => exact inRange_of_runCall htaken (runCall_of_handlerCall ((step_call hl hstim).symm.trans h))

end Sys2Proof.Machine
end
